-- ==== Sys2Proof/Word.lean ====
section
/-! DEFINITION. The widths of spec/00_scope.md R6: command word, register byte, raw sample. -/

namespace Sys2Proof

/-- A command word or a response's data: `CMD_W` = `RSP_W` = 32 (R6). -/
abbrev Word := BitVec 32

/-- A device register's contents or address: `REG_ADDR_W` = 8 (R6). -/
abbrev Byte := BitVec 8

/-- A raw sample: `RAW_W` = 16 (R6, R12 RawSample). -/
abbrev Raw := BitVec 16

end Sys2Proof
end

