-- ==== Sys2Proof/Config.lean ====
section
/-! DEFINITION. The names the spec fixes (modes, register names) and the block's OPEN parameters (spec/00_scope.md R6)
as constants with no body: nothing in Lean can evaluate one or prove a value of it. The host's two OPEN parameters are
arguments of its monitor (Machine/Host.lean). -/

namespace Sys2Proof

/-- `MODES` (R6): "exactly one mode is active at a time" (10_state.md R23). -/
inductive Mode where
  | normal
  | lowPower
  | highResolution
deriving DecidableEq, Repr

/-- The twelve register names of 40_register_map.md R81, in the order of their indices. -/
inductive RegName where
  | whoAmI
  | tempCfgReg
  | ctrlReg1
  | ctrlReg4
  | outTempL
  | outTempH
  | outXL
  | outXH
  | outYL
  | outYH
  | outZL
  | outZH
deriving DecidableEq, Repr

namespace Config

/-- DESIGN CHOICE (log 5). The free values behind the OPEN entries of `SCALE_C` (R6, R28); Machine/Tables.lean brings
them into the bound of R7 and puts 391 at (2 g, normal). Safe: every well-formed table is the table of some fill. -/
opaque scaleFill : BitVec 2 → Mode → Nat

/-- DESIGN CHOICE (log 6). How far `CMD_LATENCY` is beyond 1 (R6, 70_reset_and_hazards.md R187). Safe: free. -/
opaque latencyBeyondOne : Nat

/-- `CMD_LATENCY`, OPEN, at least 1 clock (R6, R187). -/
def cmdLatency : Nat := latencyBeyondOne + 1

end Config
end Sys2Proof
end

