-- ==== Sys2Proof/Machine/State.lean ====
section
/-! DEFINITION. The block's state (spec/10_state.md), plain data: the five architectural fields of R20, the output ports
of R32, the command in flight (70_reset_and_hazards.md R187) and what the host has still to issue (R24). -/

namespace Sys2Proof.Machine

/-- `S.sess` (R20). Its two-bit encoding is `Sess.bits` (Machine/Flags.lean). -/
inductive Sess where
  | unchecked
  | identified
  | configured
  | failed
deriving DecidableEq, Repr

/-- The codes of 60_exceptions.md R160. Codes 6 and 7 are "never produced" and are no value of this type (log 8). -/
inductive Code where
  | none
  | illegalCmd
  | configError
  | identityMismatch
  | sequenceError
  /-- Only in a response, "never stored in `S.err`" (R160). -/
  | sessionFailed
deriving DecidableEq, Repr

/-- The response of a command: `rsp_ok`, `rsp_code`, `rsp_data` (R21). -/
structure Response where
  ok : Bool
  code : Code
  data : Word
deriving DecidableEq, Repr

/-- A command accepted and not yet answered, and how many clock edges its response is away (R187). -/
structure InFlight where
  word : Word
  edges : Nat
deriving DecidableEq, Repr

/-- What the host does next at the block's ports: issue a command word, or reset the block (R24, R182). -/
inductive HostInput where
  | command (w : Word)
  | reset
deriving DecidableEq, Repr

/-- The machine's state. -/
structure State where
  /-- `S.sess`: the session's progress (R20). -/
  sess : Sess
  /-- `S.cfg_odr`: the ODR code as given (R20, R22). -/
  cfgOdr : BitVec 4
  /-- `S.cfg_fs`: the FS code (R20, R22). -/
  cfgFs : BitVec 2
  /-- `S.cfg_mode`: the mode (R20, R23); "never holds `cfg_mode` = 0b11" (R22; log 8). -/
  cfgMode : Mode
  /-- `S.err`: the first error of the session (R20, R25). -/
  err : Code
  /-- `cmd_ready` (R32). -/
  cmdReady : Bool
  /-- `rsp_valid`, and with it `rsp_ok`, `rsp_code`, `rsp_data` (R21, R32): present exactly when `rsp_valid` = 1 (log 4). -/
  rsp : Option Response
  /-- The one command in flight (R187). -/
  inFlight : Option InFlight
  /-- The host's sequence of inputs still to come, the next one first (R24; log 1). -/
  host : List HostInput
  /-- The index of the next command in that sequence, the model's own (R24; log 3). -/
  index : Nat
deriving DecidableEq, Repr

/-- Why the machine would stop. There is no such reason: every error of the spec is a response and a next state
(60_exceptions.md R162, R161, R166), and the block has no memory or device to fault on (log 16). -/
inductive Fault where
deriving DecidableEq, Repr

/-- Why an instruction has no meaning. -/
inductive Refusal where
  /-- Raised only by an arm of `exec` for an instruction the model does not give a meaning; no arm does. Safe: it stops. -/
  | notModelled (mnemonic : String)
deriving DecidableEq, Repr

/-- The machine right after reset: every field at the value of R33 and 70_reset_and_hazards.md R181. Nothing has been
issued: no input is pending (log 1) and commands are numbered from 0 (log 3). -/
def State.reset : State :=
  { sess := .unchecked, cfgOdr := 0x0, cfgFs := 0b00, cfgMode := .normal, err := .none, cmdReady := true, rsp := none,
    inFlight := none, host := [], index := 0 }

end Sys2Proof.Machine
end

