-- ==== Sys2Proof/Machine/Tables.lean ====
section
/-! DEFINITION. The read-only tables (spec/10_state.md R26 to R29), the constants of 00_scope.md R6 and the register
catalog of 40_register_map.md. -/

namespace Sys2Proof.Machine

/-- REG_MAP ROM: 12 entries of 8 bits in the order of the name indices (R26, R81, R82). -/
def regMapRom : List Byte := [0x0F, 0x1F, 0x20, 0x23, 0x0C, 0x0D, 0x28, 0x29, 0x2A, 0x2B, 0x2C, 0x2D]

/-- The name index of a register (R81). -/
def regIndex : RegName → Nat
  | .whoAmI => 0
  | .tempCfgReg => 1
  | .ctrlReg1 => 2
  | .ctrlReg4 => 3
  | .outTempL => 4
  | .outTempH => 5
  | .outXL => 6
  | .outXH => 7
  | .outYL => 8
  | .outYH => 9
  | .outZL => 10
  | .outZH => 11

/-- The device address of a register (R80, R81, R82). -/
def regAddress : RegName → Byte
  | .whoAmI => 0x0F
  | .tempCfgReg => 0x1F
  | .ctrlReg1 => 0x20
  | .ctrlReg4 => 0x23
  | .outTempL => 0x0C
  | .outTempH => 0x0D
  | .outXL => 0x28
  | .outXH => 0x29
  | .outYL => 0x2A
  | .outYH => 0x2B
  | .outZL => 0x2C
  | .outZH => 0x2D

/-- A sample channel (R83). -/
inductive Channel where
  | temperature
  | x
  | y
  | z
deriving DecidableEq, Repr

/-- The channel's low register, its pair's base (R83). -/
def Channel.lowReg : Channel → RegName
  | .temperature => .outTempL
  | .x => .outXL
  | .y => .outYL
  | .z => .outZL

/-- The channel's high register (R83). -/
def Channel.highReg : Channel → RegName
  | .temperature => .outTempH
  | .x => .outXH
  | .y => .outYH
  | .z => .outZH

/-- MODE_FACTOR ROM (R27). -/
def modeFactor : Mode → Nat
  | .normal => 64
  | .lowPower => 256
  | .highResolution => 16

/-- `k` = 256 / MODE_FACTOR (41_conversion.md R110): 4, 1 or 16. -/
def countGain (m : Mode) : Nat := 256 / modeFactor m

/-- The scale table of a fill (log 5): 391 at (2 g, normal), as R6 and R28 fix it; every other entry the fill's value
brought into the bound of R7, `1 <= entry * k <= 65536`. -/
def scaleOf (fill : BitVec 2 → Mode → Nat) (fs : BitVec 2) (m : Mode) : Nat :=
  if fs = 0b00 ∧ m = .normal then 391 else 1 + fill fs m % (65536 / countGain m)

/-- SCALE ROM: `SCALE_C(fs, mode)`, in units of 0.01 mg per LSB (R28). -/
def scaleC : BitVec 2 → Mode → Nat := scaleOf Config.scaleFill

/-- `SCALE_C` is well formed (00_scope.md R7). -/
def ScaleWellFormed (table : BitVec 2 → Mode → Nat) : Prop :=
  table 0b00 .normal = 391 ∧ ∀ fs m, 1 ≤ table fs m * countGain m ∧ table fs m * countGain m ≤ 65536

/-- FS_CODE ROM (R29, 42_config_encoder.md R132): a range in g outside {2, 4, 8, 16} has no entry. -/
def fsCodeRom (rangeG : Byte) : Option (BitVec 2) :=
  match rangeG.toNat with
  | 2 => some 0b00
  | 4 => some 0b01
  | 8 => some 0b10
  | 16 => some 0b11
  | _ => none

/-- The mode of a code (42_config_encoder.md R133): 0b11 has none. -/
def modeOfCode (code : BitVec 2) : Option Mode :=
  match code.toNat with
  | 0b00 => some .normal
  | 0b01 => some .lowPower
  | 0b10 => some .highResolution
  | _ => none

/-- The device's identity value (R6 `WHO_AM_I_VALUE`, 40_register_map.md R84). -/
def whoAmIValue : Byte := 0x33

/-- The device's 7-bit bus address on `dev_addr` (R6 `DEV_ADDR`, 40_register_map.md R85). -/
def devAddr : BitVec 7 := 0x18

/-- `CR1_BASE` (R6, 42_config_encoder.md R134). -/
def cr1Base : Byte := 0x07

/-- `CR4_BASE` (R6, 42_config_encoder.md R136). -/
def cr4Base : Byte := 0x80

/-- A named bit field of a device register: bits `hi` down to `lo` (R8). -/
structure BitField where
  hi : Nat
  lo : Nat
deriving DecidableEq, Repr

/-- The field's value in a register byte, an unsigned integer (R8). -/
def BitField.read (f : BitField) (b : Byte) : Nat := b.toNat / 2 ^ f.lo % 2 ^ (f.hi + 1 - f.lo)

/-- The fields of CTRL_REG1 (40_register_map.md R86). -/
def cr1Odr : BitField := ⟨7, 4⟩
def cr1Lp : BitField := ⟨3, 3⟩
def cr1AxisEnables : BitField := ⟨2, 0⟩

/-- The fields of CTRL_REG4 (40_register_map.md R87), the two the source does not name among them. -/
def cr4Bdu : BitField := ⟨7, 7⟩
def cr4Unnamed6 : BitField := ⟨6, 6⟩
def cr4Fs : BitField := ⟨5, 4⟩
def cr4Hr : BitField := ⟨3, 3⟩
def cr4Unnamed2to0 : BitField := ⟨2, 0⟩

end Sys2Proof.Machine
end

