-- ==== Sys2Proof/Machine/Flags.lean ====
section
/-! DEFINITION. The block has no condition codes (spec/10_state.md R30). Its status outputs are the codes of the session
state and of the errors, the STATUS word that packs them, and the two mode bits of the control images. -/

namespace Sys2Proof.Machine

/-- The encoding of `S.sess` (10_state.md R20). -/
def Sess.bits : Sess → BitVec 2
  | .unchecked => 0b00
  | .identified => 0b01
  | .configured => 0b10
  | .failed => 0b11

/-- The number of a code (60_exceptions.md R160). -/
def Code.bits : Code → BitVec 3
  | .none => 0
  | .illegalCmd => 1
  | .configError => 2
  | .identityMismatch => 3
  | .sequenceError => 4
  | .sessionFailed => 5

/-- The mode code (42_config_encoder.md R133). -/
def modeBits : Mode → BitVec 2
  | .normal => 0b00
  | .lowPower => 0b01
  | .highResolution => 0b10

/-- CTRL_REG1 bit 3 of a mode, in place (42_config_encoder.md R134). -/
def lpBit (m : Mode) : Byte := if m = .lowPower then 0x08 else 0x00

/-- CTRL_REG4 bit 3 of a mode, in place (42_config_encoder.md R136). -/
def hrBit (m : Mode) : Byte := if m = .highResolution then 0x08 else 0x00

/-- The sixteen bits STATUS shows (43_identity_status.md R152):
`{cfg_mode[1:0], cfg_fs[1:0], cfg_odr[3:0], 0b00, sess[1:0], 0b0, err[2:0]}`. -/
def statusBits (s : State) : BitVec 16 :=
  modeBits s.cfgMode ++ s.cfgFs ++ s.cfgOdr ++ 0b00#2 ++ s.sess.bits ++ 0b0#1 ++ s.err.bits

end Sys2Proof.Machine
end

