-- ==== Sys2Proof/Machine/Operands.lean ====
section
/-! DEFINITION. How the commands read their operands (spec/00_scope.md R9, 41_conversion.md R100, R103,
40_register_map.md R90). -/

namespace Sys2Proof.Machine

/-- `decodeSigned(v, N)` of 41_conversion.md R100. An input of more than `N` bits, or no sign bit at all, is refused
(93_implementation_defined.md U1, U2; log 10). -/
def decodeSigned (v n : Nat) : Option Int :=
  if n = 0 ∨ 2 ^ n ≤ v then none
  else if v.testBit (n - 1) then some ((v : Int) - 2 ^ n) else some v

/-- `decodeSigned(raw, 16)`, the one width of the block (R100): RAW read as a two's-complement number (R62). -/
def decodeSigned16 (raw : Raw) : Int := if raw.getLsbD 15 then (raw.toNat : Int) - 65536 else raw.toNat

/-- `wrap_32(i)`: the 32-bit two's-complement pattern of an integer (R9). -/
def wrap32 (i : Int) : Word := BitVec.ofInt 32 i

/-- `zext_32` of a field (R9). -/
def zext32 {n : Nat} (v : BitVec n) : Word := v.setWidth 32

/-- `assembleSample(lowByte, highByte) = (highByte << 8) | lowByte` (41_conversion.md R103, 20_memory.md R42). -/
def assembleSample (lo hi : Byte) : Raw := (hi.setWidth 16 <<< 8) ||| lo.setWidth 16

end Sys2Proof.Machine
end

