-- ==== Sys2Proof/Syntax.lean ====
section
/-! DEFINITION. The ten commands of spec/30_encoding.md R63, with the operand fields of R64 at their widths. -/

namespace Sys2Proof

/-- One constructor per row of spec/opcode_table.json. An operand is the unsigned bit field of R62, so every value of
its type is a legal field. -/
inductive Instr where
  /-- REGADDR, 40_register_map.md R90 -/
  | regaddr (name : BitVec 4)
  /-- DECODE, 41_conversion.md R102 -/
  | decode (raw : Raw)
  /-- ASSEMBLE, 41_conversion.md R104: the byte from the lower address, then the byte from the higher -/
  | assemble (lo hi : Byte)
  /-- TEMPCONV, 41_conversion.md R107 -/
  | tempconv (raw : Raw)
  /-- ACCCONV, 41_conversion.md R112 -/
  | accconv (raw : Raw)
  /-- CFGLOAD, 42_config_encoder.md R131 -/
  | cfgload (odr : BitVec 4) (rangeG : Byte) (mode : BitVec 2)
  /-- BUILDCR1, 42_config_encoder.md R135 -/
  | buildcr1
  /-- BUILDCR4, 42_config_encoder.md R137 -/
  | buildcr4
  /-- IDCHECK, 43_identity_status.md R151 -/
  | idcheck (v : Byte)
  /-- STATUS, 43_identity_status.md R152 -/
  | status
deriving DecidableEq, Repr

end Sys2Proof
end

