-- ==== Sys2Proof/Decode.lean ====
section
/-! DEFINITION. The opcode map, the decoder and the encoder of spec/30_encoding.md (R60 to R67). Total on every 32-bit
word; what is not a command is rejected by name. -/

namespace Sys2Proof

/-- The mnemonics of R63. -/
inductive Mnemonic where
  | regaddr
  | decode
  | assemble
  | tempconv
  | accconv
  | cfgload
  | buildcr1
  | buildcr4
  | idcheck
  | status
deriving DecidableEq, Repr

/-- The command a term is (R63). -/
def Instr.mnemonic : Instr → Mnemonic
  | .regaddr _ => .regaddr
  | .decode _ => .decode
  | .assemble _ _ => .assemble
  | .tempconv _ => .tempconv
  | .accconv _ => .accconv
  | .cfgload _ _ _ => .cfgload
  | .buildcr1 => .buildcr1
  | .buildcr4 => .buildcr4
  | .idcheck _ => .idcheck
  | .status => .status

/-- One row of the opcode map: opcode, `match` and `mask` (R63). -/
structure Row where
  op : BitVec 4
  pattern : Word
  mask : Word
deriving DecidableEq, Repr

/-- The opcode map of R63. -/
def Mnemonic.row : Mnemonic → Row
  | .regaddr => ⟨0x1, 0x10000000, 0xFFFFFFF0⟩
  | .decode => ⟨0x2, 0x20000000, 0xFFFF0000⟩
  | .assemble => ⟨0x3, 0x30000000, 0xFFFF0000⟩
  | .tempconv => ⟨0x4, 0x40000000, 0xFFFF0000⟩
  | .accconv => ⟨0x5, 0x50000000, 0xFFFF0000⟩
  | .cfgload => ⟨0x6, 0x60000000, 0xFFFFC000⟩
  | .buildcr1 => ⟨0x7, 0x70000000, 0xFFFFFFFF⟩
  | .buildcr4 => ⟨0x8, 0x80000000, 0xFFFFFFFF⟩
  | .idcheck => ⟨0x9, 0x90000000, 0xFFFFFF00⟩
  | .status => ⟨0xA, 0xA0000000, 0xFFFFFFFF⟩

/-- The rows in the order of R63. -/
def opcodeTable : List Row :=
  [Mnemonic.regaddr.row, Mnemonic.decode.row, Mnemonic.assemble.row, Mnemonic.tempconv.row, Mnemonic.accconv.row,
   Mnemonic.cfgload.row, Mnemonic.buildcr1.row, Mnemonic.buildcr4.row, Mnemonic.idcheck.row, Mnemonic.status.row]

/-- The command of an opcode; 0x0 and 0xB to 0xF are reserved (R63, R66). -/
def Mnemonic.ofOpcode (op : BitVec 4) : Option Mnemonic :=
  match op.toNat with
  | 0x1 => some .regaddr
  | 0x2 => some .decode
  | 0x3 => some .assemble
  | 0x4 => some .tempconv
  | 0x5 => some .accconv
  | 0x6 => some .cfgload
  | 0x7 => some .buildcr1
  | 0x8 => some .buildcr4
  | 0x9 => some .idcheck
  | 0xA => some .status
  | _ => none

/-- The opcode `OP` = `cmd[31:28]` (R60). -/
def opcodeOf (cmd : Word) : BitVec 4 := cmd.extractLsb' 28 4

/-- The fields of the command's layout (R64), each the unsigned value of its bits (R62). -/
def fieldsOf (m : Mnemonic) (cmd : Word) : Instr :=
  match m with
  | .regaddr => .regaddr (cmd.extractLsb' 0 4)
  | .decode => .decode (cmd.extractLsb' 0 16)
  | .assemble => .assemble (cmd.extractLsb' 0 8) (cmd.extractLsb' 8 8)
  | .tempconv => .tempconv (cmd.extractLsb' 0 16)
  | .accconv => .accconv (cmd.extractLsb' 0 16)
  | .cfgload => .cfgload (cmd.extractLsb' 0 4) (cmd.extractLsb' 4 8) (cmd.extractLsb' 12 2)
  | .buildcr1 => .buildcr1
  | .buildcr4 => .buildcr4
  | .idcheck => .idcheck (cmd.extractLsb' 0 8)
  | .status => .status

/-- Why a word is ILLEGAL (R65, R66). -/
inductive Illegal where
  /-- `OP` is 0x0 or 0xB to 0xF: R66 (a), (b). -/
  | reservedOpcode (op : BitVec 4)
  /-- A reserved bit of this command's word is 1: R61, R66 (c). -/
  | reservedBits (m : Mnemonic)
deriving DecidableEq, Repr

/-- The decoder's verdict (R65). -/
inductive Decoded where
  | instr (i : Instr)
  | illegal (why : Illegal)
deriving DecidableEq, Repr

/-- `decode(cmd)` of R65. -/
def decode (cmd : Word) : Decoded :=
  match Mnemonic.ofOpcode (opcodeOf cmd) with
  | none => .illegal (.reservedOpcode (opcodeOf cmd))
  | some m => if cmd &&& m.row.mask = m.row.pattern then .instr (fieldsOf m cmd) else .illegal (.reservedBits m)

/-- The instruction of a verdict, if it is one. -/
def Decoded.instr? : Decoded → Option Instr
  | .instr i => some i
  | .illegal _ => none

/-- The operand bits `cmd[27:0]` of a command, from the layouts of R64. -/
def operandBits : Instr → Word
  | .regaddr name => name.setWidth 32
  | .decode raw => raw.setWidth 32
  | .assemble lo hi => (hi.setWidth 32 <<< 8) ||| lo.setWidth 32
  | .tempconv raw => raw.setWidth 32
  | .accconv raw => raw.setWidth 32
  | .cfgload odr rangeG mode => (mode.setWidth 32 <<< 12) ||| (rangeG.setWidth 32 <<< 4) ||| odr.setWidth 32
  | .buildcr1 => 0
  | .buildcr4 => 0
  | .idcheck v => v.setWidth 32
  | .status => 0

/-- The word of a command: its opcode's `match` (R63) with the fields of its layout (R64), every reserved bit 0 (R61). -/
def encode (i : Instr) : Word := i.mnemonic.row.pattern ||| operandBits i

/-- The command word whose `nbits` low bits are those of `w`, every bit above them 0 (log 11). -/
def tableWord (nbits w : Nat) : Word := BitVec.ofNat 32 (w % 2 ^ nbits)

/-- The instruction the decoder reads from an opcode-table word; `none` where it refuses. A command is one 32-bit word
with no byte order (R60, 20_memory.md R43), so the table's bit numbers are the word's own. -/
def decodeTableWord (nbits w : Nat) : Option Instr := (decode (tableWord nbits w)).instr?

end Sys2Proof
end

