-- ==== Sys2Proof/Machine/Ops.lean ====
section
/-! DEFINITION. The shared operations: giving a response, taking an error, the refusal in FAILED, the sequence gate,
accepting a command, and reset, the only way back from an error (spec/00_scope.md R10, 60_exceptions.md, 70_reset_and_hazards.md). -/

namespace Sys2Proof.Machine

/-- `respond(ok, code, data)` (R10, R21), with the edge of R187 at which the response appears: `rsp_valid` = 1,
`cmd_ready` = 1, and no command is in flight any more. -/
def respond (ok : Bool) (code : Code) (data : Word) (s : State) : State :=
  { s with rsp := some ⟨ok, code, data⟩, cmdReady := true, inFlight := none }

/-- `respond(1, NONE, data)`: a command's success (R21). -/
def succeed (data : Word) (s : State) : State := respond true .none data s

/-- `raise E` (60_exceptions.md R162): `S.err` and `S.sess` are written, the response is (0, E, 0), nothing else is
saved or written. -/
def raise (e : Code) (s : State) : State := respond false e 0 { s with err := e, sess := .failed }

/-- `refuse` (60_exceptions.md R161): the response is (0, SESSION_FAILED, 0) and no state is written. -/
def refuse (s : State) : State := respond false .sessionFailed 0 s

/-- What the gate says of a command in a session state: a cell of the table of 60_exceptions.md R164. -/
inductive Verdict where
  | run
  /-- "-": SEQUENCE_ERROR. -/
  | outOfSequence
  /-- The refusal of R161. -/
  | refused
deriving DecidableEq, Repr

/-- The sequence gate's table (60_exceptions.md R164), its rows grouped by shape. -/
def gate (m : Mnemonic) (sess : Sess) : Verdict :=
  match m with
  | .regaddr | .decode | .assemble | .tempconv =>
    match sess with
    | .unchecked | .identified | .configured => .run
    | .failed => .refused
  | .accconv | .buildcr1 | .buildcr4 =>
    match sess with
    | .unchecked | .identified => .outOfSequence
    | .configured => .run
    | .failed => .refused
  | .cfgload =>
    match sess with
    | .unchecked | .configured => .outOfSequence
    | .identified => .run
    | .failed => .refused
  | .idcheck =>
    match sess with
    | .unchecked => .run
    | .identified | .configured => .outOfSequence
    | .failed => .refused
  | .status => .run

/-- Runs a command's rule behind the gate (R163 steps 1, 3 and 4; R164). -/
def gated (m : Mnemonic) (rule : State → State) (s : State) : State :=
  match gate m s.sess with
  | .run => rule s
  | .outOfSequence => raise .sequenceError s
  | .refused => refuse s

/-- The acceptance edge of R187: `cmd_ready` and `rsp_valid` go to 0 and the command is in flight, `CMD_LATENCY` edges
from its response. The command takes the next index (10_state.md R24; log 3). -/
def accept (w : Word) (s : State) : State :=
  { s with cmdReady := false, rsp := none, inFlight := some ⟨w, Config.cmdLatency⟩, index := s.index + 1 }

/-- Reset (R180, R181): every state field takes its reset value, the command in flight is dropped with no response and
nothing is answered. It leaves the host's own sequence alone. The only way to leave FAILED (R165, R182). -/
def applyReset (s : State) : State := { State.reset with host := s.host, index := s.index }

end Sys2Proof.Machine
end

