-- ==== Sys2Proof/Machine/Cfg.lean ====
section
/-! DEFINITION. Family CFG: CFGLOAD, BUILDCR1, BUILDCR4 (spec/42_config_encoder.md). -/

namespace Sys2Proof.Machine

/-- R131's own rule: CONFIG_ERROR for a range with no FS code, then for a mode code with no mode; else the three fields
and the session state are written in one step. -/
def cfgloadRule (odr : BitVec 4) (rangeG : Byte) (mode : BitVec 2) (s : State) : State :=
  match fsCodeRom rangeG with
  | none => raise .configError s
  | some fs =>
    match modeOfCode mode with
    | none => raise .configError s
    | some m => succeed 0 { s with cfgOdr := odr, cfgFs := fs, cfgMode := m, sess := .configured }

/-- The CTRL_REG1 image `cr1(odr, mode)` (R134). -/
def cr1Image (odr : BitVec 4) (m : Mode) : Byte := cr1Base ||| (odr.setWidth 8 <<< 4) ||| lpBit m

/-- The CTRL_REG4 image `cr4(fs, mode)` (R136). -/
def cr4Image (fs : BitVec 2) (m : Mode) : Byte := cr4Base ||| (fs.setWidth 8 <<< 4) ||| hrBit m

/-- CFGLOAD (R131). -/
def execCfgload (odr : BitVec 4) (rangeG : Byte) (mode : BitVec 2) (s : State) : Host.Outcome State Fault Refusal :=
  .next (gated .cfgload (cfgloadRule odr rangeG mode) s)

/-- BUILDCR1 (R135). -/
def execBuildcr1 (s : State) : Host.Outcome State Fault Refusal :=
  .next (gated .buildcr1 (fun t => succeed (zext32 (cr1Image t.cfgOdr t.cfgMode)) t) s)

/-- BUILDCR4 (R137). -/
def execBuildcr4 (s : State) : Host.Outcome State Fault Refusal :=
  .next (gated .buildcr4 (fun t => succeed (zext32 (cr4Image t.cfgFs t.cfgMode)) t) s)

end Sys2Proof.Machine
end

