-- ==== Sys2Proof/Machine/Conv.lean ====
section
/-! DEFINITION. Family CONV: DECODE, ASSEMBLE, TEMPCONV, ACCCONV (spec/41_conversion.md). -/

namespace Sys2Proof.Machine

/-- `TEMP_FX` in units of 1/256 degree Celsius (R106). -/
def tempFx (raw : Raw) : Int := decodeSigned16 raw + 6400

/-- `ACC_FX` in units of 1/25,600,000 g (R111), the scale and mode tables read separately (R109, R110). -/
def accFx (scale : BitVec 2 → Mode → Nat) (fs : BitVec 2) (m : Mode) (raw : Raw) : Int :=
  decodeSigned16 raw * scale fs m * countGain m

/-- R112's own rule under a scale table. -/
def accconvRule (scale : BitVec 2 → Mode → Nat) (raw : Raw) (s : State) : State :=
  succeed (wrap32 (accFx scale s.cfgFs s.cfgMode raw)) s

/-- DECODE (R102). -/
def execDecode (raw : Raw) (s : State) : Host.Outcome State Fault Refusal :=
  .next (gated .decode (succeed (wrap32 (decodeSigned16 raw))) s)

/-- ASSEMBLE (R104). -/
def execAssemble (lo hi : Byte) (s : State) : Host.Outcome State Fault Refusal :=
  .next (gated .assemble (succeed (zext32 (assembleSample lo hi))) s)

/-- TEMPCONV (R107). -/
def execTempconv (raw : Raw) (s : State) : Host.Outcome State Fault Refusal :=
  .next (gated .tempconv (succeed (wrap32 (tempFx raw))) s)

/-- ACCCONV (R112), with the block's SCALE ROM (log 5). -/
def execAccconv (raw : Raw) (s : State) : Host.Outcome State Fault Refusal :=
  .next (gated .accconv (accconvRule scaleC raw) s)

end Sys2Proof.Machine
end

