-- ==== Sys2Proof/Machine/Regmap.lean ====
section
/-! DEFINITION. Family REGMAP: REGADDR (spec/40_register_map.md R90). -/

namespace Sys2Proof.Machine

/-- R90's own rule: the address of the name, or ILLEGAL_CMD for an index with no name. -/
def regaddrRule (name : BitVec 4) (s : State) : State :=
  match regMapRom[name.toNat]? with
  | some address => succeed (zext32 address) s
  | none => raise .illegalCmd s

/-- REGADDR (R90). -/
def execRegaddr (name : BitVec 4) (s : State) : Host.Outcome State Fault Refusal :=
  .next (gated .regaddr (regaddrRule name) s)

end Sys2Proof.Machine
end

