-- ==== Sys2Proof/Machine/Session.lean ====
section
/-! DEFINITION. Family SESS: IDCHECK and STATUS (spec/43_identity_status.md). -/

namespace Sys2Proof.Machine

/-- `isKnownDevice(v)` (R150). -/
def isKnownDevice (v : Byte) : Bool := v == whoAmIValue

/-- R151's own rule: a match opens the session, a mismatch is fatal to it. -/
def idcheckRule (v : Byte) (s : State) : State :=
  if isKnownDevice v then succeed 1 { s with sess := .identified } else raise .identityMismatch s

/-- IDCHECK (R151). -/
def execIdcheck (v : Byte) (s : State) : Host.Outcome State Fault Refusal :=
  .next (gated .idcheck (idcheckRule v) s)

/-- STATUS (R152): accepted in every state, FAILED included. -/
def execStatus (s : State) : Host.Outcome State Fault Refusal :=
  .next (gated .status (fun t => succeed (zext32 (statusBits t)) t) s)

end Sys2Proof.Machine
end

