-- ==== Sys2Proof/Machine/Dispatch.lean ====
section
/-! DEFINITION. One arm per command: each calls its own meaning. -/

namespace Sys2Proof.Machine

def exec (i : Instr) (s : State) : Host.Outcome State Fault Refusal :=
  match i with
  | .regaddr name => Sys2Proof.Machine.execRegaddr name s
  | .decode raw => Sys2Proof.Machine.execDecode raw s
  | .assemble lo hi => Sys2Proof.Machine.execAssemble lo hi s
  | .tempconv raw => Sys2Proof.Machine.execTempconv raw s
  | .accconv raw => Sys2Proof.Machine.execAccconv raw s
  | .cfgload odr rangeG mode => Sys2Proof.Machine.execCfgload odr rangeG mode s
  | .buildcr1 => Sys2Proof.Machine.execBuildcr1 s
  | .buildcr4 => Sys2Proof.Machine.execBuildcr4 s
  | .idcheck v => Sys2Proof.Machine.execIdcheck v s
  | .status => Sys2Proof.Machine.execStatus s

end Sys2Proof.Machine
end

