-- ==== Sys2Proof/Machine/Command.lean ====
section
/-! DEFINITION. One command word through the order of checks of spec/60_exceptions.md R163, and how the next one is
taken from the host's sequence. -/

namespace Sys2Proof.Machine

/-- The legal STATUS word, the one word FAILED does not refuse (R161). -/
def statusWord : Word := 0xA0000000

/-- `step(cmd)` of R163: the refusal in FAILED, then decode, then the gate and the command's own checks (in `exec`). -/
def runCommand (w : Word) (s : State) : Host.Outcome State Fault Refusal :=
  if s.sess = .failed ∧ w ≠ statusWord then .next (refuse s)
  else
    match decode w with
    | .illegal _ => .next (raise .illegalCmd s)
    | .instr i => exec i s

/-- The next transaction (R5, R53): a reset the host makes now, which drops a command in flight (R180; log 7); else the
command in flight gets its response (R187); else the host's next command is accepted and run; with nothing issued the
block waits (R181; log 2). -/
def transact (s : State) : Host.Outcome State Fault Refusal :=
  match s.host with
  | .reset :: rest => .next (applyReset { s with host := rest })
  | [] =>
    match s.inFlight with
    | some f => runCommand f.word s
    | none => .next s
  | .command w :: rest =>
    match s.inFlight with
    | some f => runCommand f.word s
    | none => runCommand w (accept w { s with host := rest })

/-- The host issues `w` next, before what it had still to issue, with no command in flight (log 11). -/
def issueNext (w : Word) (s : State) : State := { s with host := .command w :: s.host, inFlight := none }

end Sys2Proof.Machine
end

