-- ==== Sys2Proof/Machine/Step.lean ====
section
/-! DEFINITION. One step of the machine: one transaction (spec/00_scope.md R5, 70_reset_and_hazards.md R188). -/

namespace Sys2Proof.Machine

/-- One atomic step per command (R5). -/
def step (s : State) : Host.Outcome State Fault Refusal := transact s

/-- `s` with the opcode-table word `w` as the next command the host issues (log 11). -/
def State.withFetchWord (s : State) (nbits w : Nat) : State := issueNext (tableWord nbits w) s

end Sys2Proof.Machine
end

