-- ==== Sys2Proof/WellFormed.lean ====
section
/-! DEFINITION. Well-formedness where a term can be ill-formed: an assembler line of spec/30_encoding.md R68, whose
operands are numbers of any size. "An assembler refuses an operand that does not fit its field." A term of `Instr` holds
bit fields of exactly their widths, so every one is well formed (log 14). -/

namespace Sys2Proof

/-- REGADDR's operand (R68): "a name of 40_register_map.md rule R81, or a number 0 to 15". -/
inductive RegOperand where
  | name (r : RegName)
  | number (n : Nat)
deriving DecidableEq, Repr

/-- CFGLOAD's `<mode>` (R68): `NORMAL`, `LOWPOWER`, `HIGHRES`, or a number 0 to 3. -/
inductive ModeOperand where
  | name (m : Mode)
  | number (n : Nat)
deriving DecidableEq, Repr

/-- One line of assembly (R68), operands in the order of its syntax column. -/
inductive AsmLine where
  | regaddr (r : RegOperand)
  | decode (raw : Nat)
  | assemble (lo hi : Nat)
  | tempconv (raw : Nat)
  | accconv (raw : Nat)
  | cfgload (odr rangeG : Nat) (mode : ModeOperand)
  | buildcr1
  | buildcr4
  | idcheck (byte : Nat)
  | status
deriving DecidableEq, Repr

/-- Whether a number fits an unsigned field of `width` bits (R62, R68). -/
def fits (width n : Nat) : Bool := decide (n < 2 ^ width)

/-- A name always has an index; a number must fit `NAME`. -/
def RegOperand.wellFormed : RegOperand → Bool
  | .name _ => true
  | .number n => fits 4 n

/-- A name always has a code; a number must fit `MODE`. -/
def ModeOperand.wellFormed : ModeOperand → Bool
  | .name _ => true
  | .number n => fits 2 n

/-- The line's operands fit the fields of R64. -/
def AsmLine.wellFormed : AsmLine → Bool
  | .regaddr r => r.wellFormed
  | .decode raw => fits 16 raw
  | .assemble lo hi => fits 8 lo && fits 8 hi
  | .tempconv raw => fits 16 raw
  | .accconv raw => fits 16 raw
  | .cfgload odr rangeG mode => fits 4 odr && fits 8 rangeG && mode.wellFormed
  | .buildcr1 => true
  | .buildcr4 => true
  | .idcheck byte => fits 8 byte
  | .status => true

end Sys2Proof
end

