-- ==== Sys2Proof/Machine/Assembler.lean ====
section
/-! DEFINITION. The assembler of spec/30_encoding.md R68: a line's word, and the text of a line. The block runs none of
this; it is the spec's way of writing a word down. -/

namespace Sys2Proof.Machine

/-- A register operand's number (R68, 40_register_map.md R81). -/
def regOperandValue : RegOperand → Nat
  | .name r => regIndex r
  | .number n => n

/-- A mode operand's number (R68, 42_config_encoder.md R133). -/
def modeOperandValue : ModeOperand → Nat
  | .name m => (modeBits m).toNat
  | .number n => n

/-- The word column of R68. -/
def lineWord : AsmLine → Nat
  | .regaddr r => 0x10000000 ||| regOperandValue r
  | .decode raw => 0x20000000 ||| raw
  | .assemble lo hi => 0x30000000 ||| (hi <<< 8) ||| lo
  | .tempconv raw => 0x40000000 ||| raw
  | .accconv raw => 0x50000000 ||| raw
  | .cfgload odr rangeG mode => 0x60000000 ||| (modeOperandValue mode <<< 12) ||| (rangeG <<< 4) ||| odr
  | .buildcr1 => 0x70000000
  | .buildcr4 => 0x80000000
  | .idcheck byte => 0x90000000 ||| byte
  | .status => 0xA0000000

/-- A line's word; "An assembler refuses an operand that does not fit its field" (R68). -/
def assembleLine (l : AsmLine) : Option Word := if l.wellFormed then some (BitVec.ofNat 32 (lineWord l)) else none

/-- The command a line names, with its operands as fields. -/
def lineInstr : AsmLine → Instr
  | .regaddr r => .regaddr (BitVec.ofNat 4 (regOperandValue r))
  | .decode raw => .decode (BitVec.ofNat 16 raw)
  | .assemble lo hi => .assemble (BitVec.ofNat 8 lo) (BitVec.ofNat 8 hi)
  | .tempconv raw => .tempconv (BitVec.ofNat 16 raw)
  | .accconv raw => .accconv (BitVec.ofNat 16 raw)
  | .cfgload odr rangeG mode =>
    .cfgload (BitVec.ofNat 4 odr) (BitVec.ofNat 8 rangeG) (BitVec.ofNat 2 (modeOperandValue mode))
  | .buildcr1 => .buildcr1
  | .buildcr4 => .buildcr4
  | .idcheck byte => .idcheck (BitVec.ofNat 8 byte)
  | .status => .status

/-- A digit's value in any base up to 16, either case (log 13). -/
def digitValue (c : Char) : Option Nat :=
  if '0' ≤ c ∧ c ≤ '9' then some (c.toNat - '0'.toNat)
  else if 'a' ≤ c ∧ c ≤ 'f' then some (c.toNat - 'a'.toNat + 10)
  else if 'A' ≤ c ∧ c ≤ 'F' then some (c.toNat - 'A'.toNat + 10)
  else none

/-- The digits of a number in a base, most significant first, after those already read. -/
def parseDigits (base : Nat) : List Char → Nat → Option Nat
  | [], n => some n
  | c :: cs, n =>
    match digitValue c with
    | some d => if d < base then parseDigits base cs (n * base + d) else none
    | none => none

/-- A number of at least one digit: "decimal, `0x` hexadecimal or `0b` binary" (R68). -/
def parseNumber : List Char → Option Nat
  | [] => none
  | '0' :: 'x' :: c :: cs => parseDigits 16 (c :: cs) 0
  | '0' :: 'b' :: c :: cs => parseDigits 2 (c :: cs) 0
  | c :: cs => parseDigits 10 (c :: cs) 0

/-- The spelling of a register name (R81). -/
def regSpelling : RegName → String
  | .whoAmI => "WHO_AM_I"
  | .tempCfgReg => "TEMP_CFG_REG"
  | .ctrlReg1 => "CTRL_REG1"
  | .ctrlReg4 => "CTRL_REG4"
  | .outTempL => "OUT_TEMP_L"
  | .outTempH => "OUT_TEMP_H"
  | .outXL => "OUT_X_L"
  | .outXH => "OUT_X_H"
  | .outYL => "OUT_Y_L"
  | .outYH => "OUT_Y_H"
  | .outZL => "OUT_Z_L"
  | .outZH => "OUT_Z_H"

/-- The twelve names (R81). -/
def regNames : List RegName :=
  [.whoAmI, .tempCfgReg, .ctrlReg1, .ctrlReg4, .outTempL, .outTempH, .outXL, .outXH, .outYL, .outYH, .outZL, .outZH]

/-- The assembler's name of a mode (42_config_encoder.md R133). -/
def modeSpelling : Mode → String
  | .normal => "NORMAL"
  | .lowPower => "LOWPOWER"
  | .highResolution => "HIGHRES"

/-- A register operand: a name, or a number. -/
def parseReg (cs : List Char) : Option RegOperand :=
  match regNames.find? (fun r => cs == (regSpelling r).toList) with
  | some r => some (.name r)
  | none => (parseNumber cs).map .number

/-- A mode operand: a name, or a number. -/
def parseMode (cs : List Char) : Option ModeOperand :=
  match [Mode.normal, .lowPower, .highResolution].find? (fun m => cs == (modeSpelling m).toList) with
  | some m => some (.name m)
  | none => (parseNumber cs).map .number

/-- Drops the spaces around a token (log 13). -/
def trimSpaces (cs : List Char) : List Char :=
  ((cs.dropWhile (· == ' ')).reverse.dropWhile (· == ' ')).reverse

/-- Splits at every comma. -/
def splitCommas : List Char → List (List Char)
  | [] => [[]]
  | ',' :: cs => [] :: splitCommas cs
  | c :: cs =>
    match splitCommas cs with
    | [] => [[c]]
    | t :: ts => (c :: t) :: ts

/-- The operands after a mnemonic: none, or tokens separated by commas (R68). -/
def operandTokens (cs : List Char) : List (List Char) :=
  match trimSpaces cs with
  | [] => []
  | rest => (splitCommas rest).map trimSpaces

/-- The line a mnemonic and its operands spell (R68). -/
def lineOf (mnemonic : String) (operands : List (List Char)) : Option AsmLine :=
  match mnemonic, operands with
  | "REGADDR", [r] => (parseReg r).map .regaddr
  | "DECODE", [raw] => (parseNumber raw).map .decode
  | "ASSEMBLE", [lo, hi] => (parseNumber lo).bind (fun l => (parseNumber hi).map (.assemble l))
  | "TEMPCONV", [raw] => (parseNumber raw).map .tempconv
  | "ACCCONV", [raw] => (parseNumber raw).map .accconv
  | "CFGLOAD", [odr, rangeG, mode] =>
    (parseNumber odr).bind (fun o => (parseNumber rangeG).bind (fun r => (parseMode mode).map (.cfgload o r)))
  | "BUILDCR1", [] => some .buildcr1
  | "BUILDCR4", [] => some .buildcr4
  | "IDCHECK", [byte] => (parseNumber byte).map .idcheck
  | "STATUS", [] => some .status
  | _, _ => none

/-- The line of a text: the mnemonic, then its operands separated by commas (R68). -/
def parseLine (text : String) : Option AsmLine :=
  let cs := trimSpaces text.toList
  lineOf (String.ofList (cs.takeWhile (· != ' '))) (operandTokens (cs.dropWhile (· != ' ')))

/-- The word of a text line; `none` where the assembler refuses it. -/
def assembleText (text : String) : Option Word := (parseLine text).bind assembleLine

end Sys2Proof.Machine
end

