-- ==== Sys2Proof/Machine/Clock.lean ====
section
/-! DEFINITION. The block at the level of its ports: one rising edge of `clk` (spec/10_state.md R32,
70_reset_and_hazards.md R180, R187). `step` is the transaction level the spec asks of a model; this file is the handshake
beneath it, over the same State. -/

namespace Sys2Proof.Machine

/-- The input pins sampled at a rising edge (R32). -/
structure Pins where
  rstN : Bool
  cmdValid : Bool
  cmd : Word
deriving DecidableEq, Repr

/-- The output ports (R32). `rsp` is present exactly when `rsp_valid` = 1. -/
structure Outputs where
  cmdReady : Bool
  rspValid : Bool
  rsp : Option Response
  devAddr : BitVec 7
deriving DecidableEq, Repr

/-- What the ports show. -/
def outputs (s : State) : Outputs := ⟨s.cmdReady, s.rsp.isSome, s.rsp, devAddr⟩

/-- One rising edge. With `rst_n` = 0: reset, with `cmd_ready` = 0 (R180). Else a command in flight comes one edge
nearer to its response, and at its last edge is run (R187; log 6, log 15). Else, at the first edge after reset,
`cmd_ready` goes to 1 (R180). Else a command the host presents is accepted (R187), and otherwise nothing changes. -/
def clockEdge (p : Pins) (s : State) : Host.Outcome State Fault Refusal :=
  if !p.rstN then .next { applyReset s with cmdReady := false }
  else
    match s.inFlight with
    | some f =>
      if f.edges ≤ 1 then runCommand f.word s else .next { s with inFlight := some ⟨f.word, f.edges - 1⟩ }
    | none =>
      if !s.cmdReady then .next { s with cmdReady := true }
      else if p.cmdValid then .next (accept p.cmd s)
      else .next s

/-- A run of edges, one for each sample of the pins. -/
def clockRun : List Pins → State → Host.Outcome State Fault Refusal
  | [], s => .next s
  | p :: ps, s =>
    match clockEdge p s with
    | .next s' => clockRun ps s'
    | .fault r => .fault r
    | .refused r => .refused r

end Sys2Proof.Machine
end

