-- ==== Sys2Proof/Machine/Physical.lean ====
section
/-! DEFINITION. The physical values as exact rationals: the source's formulas, which the block's fixed-point results
represent (spec/41_conversion.md R105, R108, R113; 00_scope.md R9, R11). -/

namespace Sys2Proof.Machine

/-- `T(raw)` in degrees Celsius (R105). -/
def temperatureCelsius (raw : Raw) : ℚ := (decodeSigned16 raw : ℚ) / 256 + 25

/-- `MG(range, mode)`, the scale factor in mg per LSB (R110). -/
def mgPerLsb (scale : BitVec 2 → Mode → Nat) (fs : BitVec 2) (m : Mode) : ℚ := (scale fs m : ℚ) / 100

/-- `A(raw)` in g: both divisions exact (R108, R114). -/
def accelerationG (scale : BitVec 2 → Mode → Nat) (fs : BitVec 2) (m : Mode) (raw : Raw) : ℚ :=
  ((decodeSigned16 raw : ℚ) / (modeFactor m : ℚ)) * mgPerLsb scale fs m / 1000

end Sys2Proof.Machine
end

