-- ==== Sys2Proof/Machine/Host.lean ====
section
/-! DEFINITION. The host's duties as a monitor over its actions (spec/20_memory.md section 4, R46 to R52;
70_reset_and_hazards.md R183, R185; log 12). The duties are not the block's and the block checks none of them: the monitor
only says which runs the spec speaks of. A byte the device returns is part of the action, so it is any value
(93_implementation_defined.md U3 to U7). -/

namespace Sys2Proof.Machine

/-- The host's OPEN parameters: arguments of every claim about a host (log 9). -/
structure HostParams where
  /-- `CTRL_WRITE_ORDER` (R6, R52): whether CTRL_REG1 is written before CTRL_REG4. -/
  ctrlReg1First : Bool
  /-- `TEMP_CFG_VALUE` (R6, 40_register_map.md R88). -/
  tempCfgValue : Byte
  /-- Whether the host "has shown that block reads are safe on its bus" (R49). -/
  blockReadsShownSafe : Bool
deriving DecidableEq, Repr

/-- What the host does: to the block (`issue`, `resetBlock`) or, by the transport, to the device (R40). DESIGN CHOICE
(log 17): of the transport's two primitives these are the counts the spec gives a use, reads of one or two bytes and writes
of one; a longer transfer is no action of the monitor. -/
inductive HostAction where
  /-- A command word, its response awaited. -/
  | issue (w : Word)
  /-- A one-byte `readBytes` of a device register, and the byte it returned (R46). -/
  | read (reg value : Byte)
  /-- A two-byte `readBytes` from `reg`, and the bytes it returned (R49). -/
  | readTwo (reg first second : Byte)
  /-- A one-byte `writeBytes` (R46). -/
  | write (reg value : Byte)
  /-- The last write has completed and any settle delay has passed (R50). -/
  | settle
  /-- A transport operation failed (R51). -/
  | transportFailure
  /-- A new session (70_reset_and_hazards.md R182). -/
  | resetBlock
deriving DecidableEq, Repr

/-- What the monitor remembers of a host's run. -/
structure HostView where
  block : State
  /-- The byte last read from WHO_AM_I in this session. -/
  whoAmI : Option Byte
  /-- The pairs whose low byte has been read and whose high byte has not, with that byte. -/
  lows : List (Channel × Byte)
  /-- The complete pairs fetched in this session: channel, low byte, high byte. -/
  samples : List (Channel × Byte × Byte)
  unsettled : Bool
  transferFailed : Bool
  /-- The images BUILDCR1 and BUILDCR4 answered in this session. -/
  cr1 : Option Byte
  cr4 : Option Byte
  wroteCr1 : Bool
  wroteCr4 : Bool
deriving DecidableEq, Repr

/-- A session's start, with the block as given. -/
def HostView.start (block : State) (unsettled : Bool) : HostView :=
  { block := block, whoAmI := none, lows := [], samples := [], unsettled := unsettled, transferFailed := false,
    cr1 := none, cr4 := none, wroteCr1 := false, wroteCr4 := false }

/-- The channels of 40_register_map.md R83. -/
def channels : List Channel := [.temperature, .x, .y, .z]

/-- The channel whose low register is at this address (R83). -/
def channelOfLow (reg : Byte) : Option Channel := channels.find? (fun c => regAddress c.lowReg == reg)

/-- The channel whose high register is at this address (R83). -/
def channelOfHigh (reg : Byte) : Option Channel := channels.find? (fun c => regAddress c.highReg == reg)

/-- The low byte of a channel's half-read pair. -/
def HostView.lowOf (v : HostView) (c : Channel) : Option Byte := (v.lows.find? (fun e => e.1 == c)).map (·.2)

/-- Whether an address is an output register of some channel, so that reading it is sampling (R83,
70_reset_and_hazards.md R183 step 6). -/
def isOutputReg (reg : Byte) : Bool := (channelOfLow reg).isSome || (channelOfHigh reg).isSome

/-- A one-byte read, no write unsettled (R50), and no sampling of a session that is over (R47: "must not proceed to
configuration or sampling"; for the errors other than IDENTITY_MISMATCH DEDUCED, log 18): WHO_AM_I is noted (R47); the low register of a pair opens it, unless it is
open already; the high register completes an open pair (R48). Every other order of reads is free (R55), and of a register
outside R81 nothing is assumed (R57). -/
def HostView.readByte (v : HostView) (reg value : Byte) : Option HostView :=
  if v.unsettled || (v.block.sess == .failed && isOutputReg reg) then none
  else if reg = regAddress .whoAmI then some { v with whoAmI := some value }
  else
    match channelOfLow reg with
    | some c => if (v.lowOf c).isSome then none else some { v with lows := (c, value) :: v.lows }
    | none =>
      match channelOfHigh reg with
      | some c =>
        match v.lowOf c with
        | none => none
        | some lo =>
          some { v with lows := v.lows.filter (fun e => e.1 != c), samples := (c, lo, value) :: v.samples }
      | none => some v

/-- The session state in which the host may write a configuration register: IDCHECK has succeeded (R47) and no error has
ended the session since (60_exceptions.md R161, R165). -/
def identityChecked (s : State) : Bool :=
  match s.sess with
  | .identified | .configured => true
  | .unchecked | .failed => false

/-- A one-byte write, the last one settled (R50) and the identity checked (R47): the BUILDCR1 byte to CTRL_REG1, the
BUILDCR4 byte to CTRL_REG4, in the order of `CTRL_WRITE_ORDER`, or `TEMP_CFG_VALUE` to TEMP_CFG_REG (R52). -/
def HostView.writeByte (p : HostParams) (v : HostView) (reg value : Byte) : Option HostView :=
  if v.unsettled || !identityChecked v.block then none
  else if reg = regAddress .ctrlReg1 then
    if v.cr1 = some value ∧ (p.ctrlReg1First ∨ v.wroteCr4) then some { v with unsettled := true, wroteCr1 := true } else none
  else if reg = regAddress .ctrlReg4 then
    if v.cr4 = some value ∧ (!p.ctrlReg1First ∨ v.wroteCr1) then some { v with unsettled := true, wroteCr4 := true }
    else none
  else if reg = regAddress .tempCfgReg ∧ value = p.tempCfgValue then some { v with unsettled := true }
  else none

/-- The operand duties of a command: IDCHECK gets the byte read from WHO_AM_I (R47), ASSEMBLE a fetched pair, the first
byte as LO and the second as HI (R48). DESIGN CHOICE (log 19): the operand of DECODE, TEMPCONV and ACCCONV is free, and
need not be a sample ASSEMBLE answered. A command of a failed session may be issued, and the block refuses it
(60_exceptions.md R161; log 18). -/
def HostView.mayIssue (v : HostView) (w : Word) : Bool :=
  match decode w with
  | .instr (.idcheck b) => v.whoAmI == some b
  | .instr (.assemble lo hi) => v.samples.any (fun e => e.2 == (lo, hi))
  | _ => true

/-- The data byte of a successful response, for the command the word is. -/
def imageAnswered (i : Instr) (w : Word) (s : State) : Option Byte :=
  if decode w = .instr i then
    match s.rsp with
    | some r => if r.ok then some (r.data.setWidth 8) else none
    | none => none
  else none

/-- A command: the block runs it, and the host keeps the images it is answered. -/
def HostView.issue (v : HostView) (w : Word) : Option HostView :=
  if v.mayIssue w then
    match runCommand w (accept w v.block) with
    | .next s =>
      some { v with block := s, cr1 := (imageAnswered .buildcr1 w s).or v.cr1,
                    cr4 := (imageAnswered .buildcr4 w s).or v.cr4 }
    | .fault _ => none
    | .refused _ => none
  else none

/-- One action of the host; `none` where it breaks a duty, so that the spec says nothing of the run. After a failed
transfer the session is not continued (R51). DESIGN CHOICE (log 20): a failure while a write is unsettled is within the
duties, whichever operation it was that failed. -/
def HostView.act (p : HostParams) (v : HostView) (a : HostAction) : Option HostView :=
  match a with
  | .resetBlock => some (.start (applyReset v.block) v.unsettled)
  | .settle => some { v with unsettled := false }
  | .issue w => if v.transferFailed then none else v.issue w
  | .read reg value => if v.transferFailed then none else v.readByte reg value
  | .readTwo reg first second =>
    if v.transferFailed || !p.blockReadsShownSafe then none
    else (v.readByte reg first).bind (fun u => u.readByte (reg + 1) second)
  | .write reg value => if v.transferFailed then none else v.writeByte p reg value
  | .transportFailure => some { v with transferFailed := true }

/-- A run of host actions; `none` once a duty is broken. -/
def HostView.run (p : HostParams) : List HostAction → HostView → Option HostView
  | [], v => some v
  | a :: as, v => (v.act p a).bind (HostView.run p as)

/-- The command that converts a channel's sample (40_register_map.md R83; the axes alike, 41_conversion.md R115). -/
def Channel.conversion : Channel → Raw → Instr
  | .temperature => .tempconv
  | .x => .accconv
  | .y => .accconv
  | .z => .accconv

/-- Step 5's two control writes in the order `CTRL_WRITE_ORDER`, each settled (R183, R50, R52). -/
def controlWrites (p : HostParams) (cr1 cr4 : Byte) : List HostAction :=
  if p.ctrlReg1First then
    [.write (regAddress .ctrlReg1) cr1, .settle, .write (regAddress .ctrlReg4) cr4, .settle]
  else [.write (regAddress .ctrlReg4) cr4, .settle, .write (regAddress .ctrlReg1) cr1, .settle]

/-- The host's boot sequence after the reset (R183 steps 2 to 5), with the byte the device returns from WHO_AM_I and the
image bytes the host writes. TEMP_CFG_REG is left alone, as the rule allows. -/
def bootActions (p : HostParams) (whoAmI : Byte) (odr : BitVec 4) (rangeG : Byte) (mode : BitVec 2) (cr1 cr4 : Byte) :
    List HostAction :=
  [.issue (encode (.regaddr 0)), .read (regAddress .whoAmI) whoAmI, .issue (encode (.idcheck whoAmI)),
   .issue (encode (.cfgload odr rangeG mode)), .issue (encode .buildcr1), .issue (encode .buildcr4)] ++
  controlWrites p cr1 cr4

/-- One sample of a channel (R183 step 6, 30_encoding.md R69), with the two bytes the device returns. -/
def sampleActions (c : Channel) (lo hi : Byte) : List HostAction :=
  [.read (regAddress c.lowReg) lo, .read (regAddress c.highReg) hi, .issue (encode (.assemble lo hi)),
   .issue (encode (c.conversion (assembleSample lo hi)))]

end Sys2Proof.Machine
end

