-- ==== Sys2Proof/Safety.lean ====
section
/-! DEFINITION. What the spec says holds in every state a run reaches, and which runs it speaks of, in the terms the
statements use. -/

namespace Sys2Proof.Machine

/-- The session's own rules. -/
structure SessionInv (s : State) : Prop where
  /-- "`S.err` = NONE exactly when `S.sess` is not FAILED" (10_state.md R25). -/
  err_none_iff : s.err = .none ↔ s.sess ≠ .failed
  /-- SESSION_FAILED is "never stored in `S.err`" (60_exceptions.md R160). -/
  err_stored : s.err ≠ .sessionFailed
  /-- Before CONFIGURED the configuration still has its reset value: only a successful CFGLOAD writes it (R22, R33). -/
  unconfigured : s.sess = .unchecked ∨ s.sess = .identified → s.cfgOdr = 0 ∧ s.cfgFs = 0 ∧ s.cfgMode = .normal

/-- The shape of a response (10_state.md R21). -/
def Response.WellFormed (r : Response) : Prop :=
  (r.ok = true → r.code = .none) ∧ (r.ok = false → r.code ≠ .none ∧ r.data = 0)

/-- The ports' own rules (R21; 70_reset_and_hazards.md R180, R187): a command in flight excludes readiness, readiness
goes with the response, and every response has R21's shape. -/
structure PortInv (s : State) : Prop where
  busy : s.inFlight.isSome → s.cmdReady = false
  answered_ready : s.rsp.isSome → s.cmdReady = true
  shape : ∀ r, s.rsp = some r → r.WellFormed

/-- Holds at reset and is kept by every step and every clock edge. -/
structure BlockInv (s : State) : Prop where
  session : SessionInv s
  ports : PortInv s

/-- The three fields of the OperatingConfig are the same (R22). -/
def SameConfig (s t : State) : Prop := t.cfgOdr = s.cfgOdr ∧ t.cfgFs = s.cfgFs ∧ t.cfgMode = s.cfgMode

/-- All five fields of the architectural state (R20) are the same: "no state is written". -/
def SameArch (s t : State) : Prop := t.sess = s.sess ∧ t.err = s.err ∧ SameConfig s t

/-- The host's sequence and the command's index are the same: no command touches them. -/
def SameHost (s t : State) : Prop := t.host = s.host ∧ t.index = s.index

/-- What the host holds as images are the images of the block's configuration. -/
structure HostInv (v : HostView) : Prop where
  block : BlockInv v.block
  cr1 : ∀ b, v.cr1 = some b →
    (v.block.sess = .configured ∨ v.block.sess = .failed) ∧ b = cr1Image v.block.cfgOdr v.block.cfgMode
  cr4 : ∀ b, v.cr4 = some b →
    (v.block.sess = .configured ∨ v.block.sess = .failed) ∧ b = cr4Image v.block.cfgFs v.block.cfgMode

end Sys2Proof.Machine
end

