-- ==== Sys2Proof/Certificates/Slice0/Obligations.lean ====
section
/-! DEFINITION. The statements for the provers. Each docstring names the rule of spec/ it states. -/

open Sys2Proof Sys2Proof.Machine

namespace Sys2Proof.Statements

/-- `s` after a success (10_state.md R21): the response is (1, NONE, `data`), the handshake is over (70_reset_and_hazards.md
R187), and nothing else has changed. -/
def success (data : Word) (s : State) : State :=
  { s with rsp := some ⟨true, .none, data⟩, cmdReady := true, inFlight := none }

/-- `s` after `raise e` (60_exceptions.md R162), and nothing else has changed. -/
def raised (e : Code) (s : State) : State :=
  { s with err := e, sess := .failed, rsp := some ⟨false, e, 0⟩, cmdReady := true, inFlight := none }

/-- `s` after the refusal in FAILED (60_exceptions.md R161), and nothing else has changed. -/
def refusedIn (s : State) : State :=
  { s with rsp := some ⟨false, .sessionFailed, 0⟩, cmdReady := true, inFlight := none }

/-- A word with opcode `op` and one of the layout's reserved bits set raises ILLEGAL_CMD outside FAILED (30_encoding.md R61). -/
def ReservedBitsRaise (op : BitVec 4) (reserved : Word) (s : State) : Prop :=
  ∀ w : Word, opcodeOf w = op → w &&& reserved ≠ 0 → s.sess ≠ .failed →
    runCommand w s = .next (raised .illegalCmd s)

/-- The table of 60_exceptions.md R164: the session states, FAILED apart, in which a command runs. -/
def runsIn : Mnemonic → List Sess
  | .regaddr => [.unchecked, .identified, .configured]
  | .decode => [.unchecked, .identified, .configured]
  | .assemble => [.unchecked, .identified, .configured]
  | .tempconv => [.unchecked, .identified, .configured]
  | .accconv => [.configured]
  | .cfgload => [.identified]
  | .buildcr1 => [.configured]
  | .buildcr4 => [.configured]
  | .idcheck => [.unchecked]
  | .status => [.unchecked, .identified, .configured]

/-- The four conversion commands (41_conversion.md R116). -/
def IsConversion (i : Instr) : Prop :=
  i.mnemonic = .decode ∨ i.mnemonic = .assemble ∨ i.mnemonic = .tempconv ∨ i.mnemonic = .accconv

/-- A success: `rsp_ok` = 1. -/
def Succeeded (t : State) : Prop := ∃ d, t.rsp = some ⟨true, .none, d⟩

end Sys2Proof.Statements

open Sys2Proof.Statements

/-! ### Encoding (30_encoding.md) -/

/-- R60, R62, R63, R64: every command, at every value of its operands, decodes from its word. -/
def Obligations.DecodeOfEncode : Prop := ∀ i : Instr, decode (encode i) = .instr i

/-- R61, R64, R67: a command has one word. -/
def Obligations.EncodeOfDecode : Prop := ∀ (w : Word) (i : Instr), decode w = .instr i → encode i = w

/-- R65: the decoder's verdict on every word: a command exactly when the opcode has a row of R63 and
`(cmd & mask) == match`, and ILLEGAL otherwise. -/
def Obligations.DecoderFollowsTheOpcodeMap : Prop :=
  ∀ w : Word,
    (∀ i, decode w = .instr i ↔
      ∃ m : Mnemonic, opcodeOf w = m.row.op ∧ w &&& m.row.mask = m.row.pattern ∧ i = fieldsOf m w) ∧
    ((∃ why, decode w = .illegal why) ↔ ∀ r ∈ opcodeTable, w &&& r.mask ≠ r.pattern)

/-- R66: each illegal encoding raises ILLEGAL_CMD (outside FAILED, where R161 refuses first), and every legal word does
exactly what its rule says. -/
def Obligations.IllegalEncodingsRaise : Prop :=
  ∀ (w : Word) (s : State), s.sess ≠ .failed →
    (opcodeOf w = 0 ∨ 0xB ≤ (opcodeOf w).toNat → runCommand w s = .next (raised .illegalCmd s)) ∧
    ((opcodeOf w = 0x1 ∧ w &&& 0x0FFFFFF0 ≠ 0) ∨
     (opcodeOf w ∈ [0x2, 0x3, 0x4, 0x5] ∧ w &&& 0x0FFF0000 ≠ 0) ∨
     (opcodeOf w = 0x6 ∧ w &&& 0x0FFFC000 ≠ 0) ∨
     (opcodeOf w ∈ [0x7, 0x8, 0xA] ∧ w &&& 0x0FFFFFFF ≠ 0) ∨
     (opcodeOf w = 0x9 ∧ w &&& 0x0FFFFF00 ≠ 0) → runCommand w s = .next (raised .illegalCmd s)) ∧
    (∀ name : BitVec 4, decode w = .instr (.regaddr name) → 12 ≤ name.toNat →
      runCommand w s = .next (raised .illegalCmd s)) ∧
    (∀ i, decode w = .instr i → runCommand w s = exec i s)

/-- R63, R64, R68: words written out from the encodings, one or more of each family. -/
def Obligations.SpecWordsDecode : Prop :=
  decode 0x10000006 = .instr (.regaddr 6) ∧ decode 0x2000FFC0 = .instr (.decode 0xFFC0) ∧
  decode 0x30000100 = .instr (.assemble 0x00 0x01) ∧ decode 0x40000100 = .instr (.tempconv 0x0100) ∧
  decode 0x50000040 = .instr (.accconv 0x0040) ∧ decode 0x60002087 = .instr (.cfgload 7 8 2) ∧
  decode 0x70000000 = .instr .buildcr1 ∧ decode 0x80000000 = .instr .buildcr4 ∧
  decode 0x90000033 = .instr (.idcheck 0x33) ∧ decode 0xA0000000 = .instr .status

/-- R68: a line whose operands fit assembles to a word that decodes to its command; any other line is refused. A register
name stands for its index of 40_register_map.md R81 and a mode name for its code of 42_config_encoder.md R133. -/
def Obligations.AssembledLineDecodes : Prop :=
  (∀ l : AsmLine,
    (l.wellFormed = true → ∃ w, assembleLine l = some w ∧ decode w = .instr (lineInstr l)) ∧
    (l.wellFormed = false → assembleLine l = none)) ∧
  (∀ (r : RegName) (index : Nat),
    (r, index) ∈ [(RegName.whoAmI, 0), (.tempCfgReg, 1), (.ctrlReg1, 2), (.ctrlReg4, 3), (.outTempL, 4), (.outTempH, 5),
      (.outXL, 6), (.outXH, 7), (.outYL, 8), (.outYH, 9), (.outZL, 10), (.outZH, 11)] →
    assembleLine (.regaddr (.name r)) = some (BitVec.ofNat 32 (0x10000000 + index)) ∧
    lineInstr (.regaddr (.name r)) = .regaddr (BitVec.ofNat 4 index)) ∧
  (∀ (m : Mode) (code : Nat), (m, code) ∈ [(Mode.normal, 0), (.lowPower, 1), (.highResolution, 2)] →
    ∀ odr rangeG : Nat, odr < 16 → rangeG < 256 →
      assembleLine (.cfgload odr rangeG (.name m)) =
        some (BitVec.ofNat 32 (0x60000000 + 0x1000 * code + 0x10 * rangeG + odr)) ∧
      lineInstr (.cfgload odr rangeG (.name m)) = .cfgload (BitVec.ofNat 4 odr) (BitVec.ofNat 8 rangeG) (BitVec.ofNat 2 code))

/-! ### The step (00_scope.md R5, 20_memory.md R53, 60_exceptions.md R163) -/

/-- A step runs the decoded command: with no command in flight and the host's next input a word that decodes to `i`, the
step is `exec i` in the state in which the word is accepted (R53, R187): the input is consumed, the command has the next
index, `cmd_ready` and `rsp_valid` are 0 and the word is in flight. -/
def Obligations.StepRunsTheDecodedCommand : Prop :=
  ∀ (s : State) (w : Word) (rest : List HostInput) (i : Instr),
    s.inFlight = none → s.host = .command w :: rest → decode w = .instr i →
    step s = exec i { s with host := rest, index := s.index + 1, cmdReady := false, rsp := none,
                             inFlight := some ⟨w, Config.cmdLatency⟩ }

/-- R163: the order of the checks, and the command's rule (`exec`, stated per command below) after them. -/
def Obligations.OrderOfChecks : Prop :=
  ∀ (w : Word) (s : State),
    (s.sess = .failed → w ≠ 0xA0000000 → runCommand w s = .next (refusedIn s)) ∧
    (¬(s.sess = .failed ∧ w ≠ 0xA0000000) → ∀ why, decode w = .illegal why →
      runCommand w s = .next (raised .illegalCmd s)) ∧
    (s.sess ≠ .failed → ∀ i, decode w = .instr i → s.sess ∉ runsIn i.mnemonic →
      runCommand w s = .next (raised .sequenceError s)) ∧
    (¬(s.sess = .failed ∧ w ≠ 0xA0000000) → ∀ i, decode w = .instr i → runCommand w s = exec i s) ∧
    (s.sess ≠ .failed → ∀ i, decode w = .instr i → s.sess ∈ runsIn i.mnemonic →
      (∀ name, i = .regaddr name → 12 ≤ name.toNat → runCommand w s = .next (raised .illegalCmd s)) ∧
      (∀ odr rangeG mode, i = .cfgload odr rangeG mode →
        rangeG ∉ [(2 : Byte), 4, 8, 16] ∨ mode = 0b11 → runCommand w s = .next (raised .configError s)) ∧
      (∀ v, i = .idcheck v → v ≠ 0x33 → runCommand w s = .next (raised .identityMismatch s)))

/-- R161: in FAILED every word but the legal STATUS is refused and no state is written. -/
def Obligations.FailedRefusesAllButStatus : Prop :=
  ∀ (w : Word) (s : State), s.sess = .failed →
    (w ≠ 0xA0000000 → runCommand w s = .next (refusedIn s)) ∧
    (w = 0xA0000000 → ∃ t, runCommand w s = .next t ∧ Succeeded t ∧ SameArch s t)

/-- R162: an error response other than the refusal has a code of 1 to 4 and comes from a state that has not failed (so
`err` was NONE, by the invariant), and that state has changed in `err`, `sess` and the response alone. -/
def Obligations.RaiseIsPrecise : Prop :=
  ∀ (w : Word) (s t : State) (r : Response), runCommand w s = .next t → t.rsp = some r → r.ok = false →
    r.code ≠ .sessionFailed →
    s.sess ≠ .failed ∧ t = raised r.code s ∧
    r.code ∈ [.illegalCmd, .configError, .identityMismatch, .sequenceError] ∧ (SessionInv s → s.err = .none)

/-- R164: the sequence gate. A command outside its states raises SEQUENCE_ERROR, one in its states never does, and in
FAILED every command but STATUS is refused. -/
def Obligations.SequenceGate : Prop :=
  ∀ (i : Instr) (s : State),
    (s.sess ≠ .failed → s.sess ∉ runsIn i.mnemonic → exec i s = .next (raised .sequenceError s)) ∧
    (s.sess ∈ runsIn i.mnemonic → exec i s ≠ .next (raised .sequenceError s)) ∧
    (s.sess = .failed → i.mnemonic ≠ .status → exec i s = .next (refusedIn s)) ∧
    (s.sess = .failed → i.mnemonic = .status → ∃ t, exec i s = .next t ∧ Succeeded t)

/-! ### The commands -/

/-- R90: REGADDR. The address it answers for a name is the one the host reads and writes that register at. -/
def Obligations.RegaddrCommand : Prop :=
  ∀ (name : BitVec 4) (s : State),
    decode (BitVec.ofNat 32 (0x10000000 + name.toNat)) = .instr (.regaddr name) ∧
    (s.sess ≠ .failed → ∀ address : Byte,
      (name, address) ∈ [((0 : BitVec 4), (0x0F : Byte)), (1, 0x1F), (2, 0x20), (3, 0x23), (4, 0x0C), (5, 0x0D),
        (6, 0x28), (7, 0x29), (8, 0x2A), (9, 0x2B), (10, 0x2C), (11, 0x2D)] →
      exec (.regaddr name) s = .next (success (BitVec.ofNat 32 address.toNat) s)) ∧
    (s.sess ≠ .failed → ∀ r : RegName,
      exec (.regaddr (BitVec.ofNat 4 (regIndex r))) s = .next (success (BitVec.ofNat 32 (regAddress r).toNat) s)) ∧
    (s.sess ≠ .failed → 12 ≤ name.toNat → exec (.regaddr name) s = .next (raised .illegalCmd s)) ∧
    (s.sess = .failed → exec (.regaddr name) s = .next (refusedIn s)) ∧
    ReservedBitsRaise 0x1 0x0FFFFFF0 s

/-- R102: DECODE. -/
def Obligations.DecodeCommand : Prop :=
  ∀ (raw : Raw) (s : State),
    decode (BitVec.ofNat 32 (0x20000000 + raw.toNat)) = .instr (.decode raw) ∧
    (s.sess ≠ .failed → exec (.decode raw) s = .next (success (raw.signExtend 32) s)) ∧
    (s.sess = .failed → exec (.decode raw) s = .next (refusedIn s)) ∧
    ReservedBitsRaise 0x2 0x0FFF0000 s

/-- R104: ASSEMBLE. -/
def Obligations.AssembleCommand : Prop :=
  ∀ (lo hi : Byte) (s : State),
    decode (BitVec.ofNat 32 (0x30000000 + 0x100 * hi.toNat + lo.toNat)) = .instr (.assemble lo hi) ∧
    (s.sess ≠ .failed → exec (.assemble lo hi) s = .next (success (BitVec.ofNat 32 (0x100 * hi.toNat + lo.toNat)) s)) ∧
    (s.sess = .failed → exec (.assemble lo hi) s = .next (refusedIn s)) ∧
    ReservedBitsRaise 0x3 0x0FFF0000 s

/-- R107: TEMPCONV. -/
def Obligations.TempconvCommand : Prop :=
  ∀ (raw : Raw) (s : State),
    decode (BitVec.ofNat 32 (0x40000000 + raw.toNat)) = .instr (.tempconv raw) ∧
    (s.sess ≠ .failed → exec (.tempconv raw) s = .next (success (BitVec.ofInt 32 (raw.toInt + 6400)) s)) ∧
    (s.sess = .failed → exec (.tempconv raw) s = .next (refusedIn s)) ∧
    ReservedBitsRaise 0x4 0x0FFF0000 s

/-- R112: ACCCONV, for every value of the SCALE ROM's free entries (log 5). -/
def Obligations.AccconvCommand : Prop :=
  ∀ (raw : Raw) (s : State),
    decode (BitVec.ofNat 32 (0x50000000 + raw.toNat)) = .instr (.accconv raw) ∧
    (∀ k : Int, (s.cfgMode, k) ∈ [(Mode.normal, 4), (Mode.lowPower, 1), (Mode.highResolution, 16)] →
      s.sess = .configured →
      exec (.accconv raw) s = .next (success (BitVec.ofInt 32 (raw.toInt * scaleC s.cfgFs s.cfgMode * k)) s)) ∧
    (s.sess = .unchecked ∨ s.sess = .identified → exec (.accconv raw) s = .next (raised .sequenceError s)) ∧
    (s.sess = .failed → exec (.accconv raw) s = .next (refusedIn s)) ∧
    ReservedBitsRaise 0x5 0x0FFF0000 s

/-- R131: CFGLOAD. -/
def Obligations.CfgloadCommand : Prop :=
  ∀ (odr : BitVec 4) (rangeG : Byte) (mode : BitVec 2) (s : State),
    decode (BitVec.ofNat 32 (0x60000000 + 0x1000 * mode.toNat + 0x10 * rangeG.toNat + odr.toNat)) = .instr (.cfgload odr rangeG mode) ∧
    (s.sess = .identified → ∀ (fs : BitVec 2) (m : Mode),
      (rangeG, fs) ∈ [((2 : Byte), (0b00 : BitVec 2)), (4, 0b01), (8, 0b10), (16, 0b11)] →
      (mode, m) ∈ [((0b00 : BitVec 2), Mode.normal), (0b01, .lowPower), (0b10, .highResolution)] →
      exec (.cfgload odr rangeG mode) s =
        .next (success 0 { s with cfgOdr := odr, cfgFs := fs, cfgMode := m, sess := .configured })) ∧
    (s.sess = .identified → rangeG ∉ [(2 : Byte), 4, 8, 16] ∨ mode = 0b11 →
      exec (.cfgload odr rangeG mode) s = .next (raised .configError s)) ∧
    (s.sess = .unchecked ∨ s.sess = .configured →
      exec (.cfgload odr rangeG mode) s = .next (raised .sequenceError s)) ∧
    (s.sess = .failed → exec (.cfgload odr rangeG mode) s = .next (refusedIn s)) ∧
    ReservedBitsRaise 0x6 0x0FFFC000 s

/-- R135: BUILDCR1, its image `{odr[3:0], LP, 0b111}`. -/
def Obligations.Buildcr1Command : Prop :=
  ∀ s : State,
    decode 0x70000000 = .instr .buildcr1 ∧
    (∀ lp : Nat, (s.cfgMode, lp) ∈ [(Mode.normal, 0), (Mode.lowPower, 1), (Mode.highResolution, 0)] →
      s.sess = .configured → exec .buildcr1 s = .next (success (BitVec.ofNat 32 (0x10 * s.cfgOdr.toNat + 8 * lp + 7)) s)) ∧
    (s.sess = .unchecked ∨ s.sess = .identified → exec .buildcr1 s = .next (raised .sequenceError s)) ∧
    (s.sess = .failed → exec .buildcr1 s = .next (refusedIn s)) ∧
    ReservedBitsRaise 0x7 0x0FFFFFFF s

/-- R137: BUILDCR4, its image `{1, 0, fs[1:0], HR, 0b000}`. -/
def Obligations.Buildcr4Command : Prop :=
  ∀ s : State,
    decode 0x80000000 = .instr .buildcr4 ∧
    (∀ hr : Nat, (s.cfgMode, hr) ∈ [(Mode.normal, 0), (Mode.lowPower, 0), (Mode.highResolution, 1)] →
      s.sess = .configured →
      exec .buildcr4 s = .next (success (BitVec.ofNat 32 (0x80 + 0x10 * s.cfgFs.toNat + 8 * hr)) s)) ∧
    (s.sess = .unchecked ∨ s.sess = .identified → exec .buildcr4 s = .next (raised .sequenceError s)) ∧
    (s.sess = .failed → exec .buildcr4 s = .next (refusedIn s)) ∧
    ReservedBitsRaise 0x8 0x0FFFFFFF s

/-- R151 (and R150 with it): IDCHECK. -/
def Obligations.IdcheckCommand : Prop :=
  ∀ (v : Byte) (s : State),
    decode (BitVec.ofNat 32 (0x90000000 + v.toNat)) = .instr (.idcheck v) ∧
    (s.sess = .unchecked → v = 0x33 →
      exec (.idcheck v) s = .next (success 1 { s with sess := .identified })) ∧
    (s.sess = .unchecked → v ≠ 0x33 → exec (.idcheck v) s = .next (raised .identityMismatch s)) ∧
    (s.sess = .identified ∨ s.sess = .configured → exec (.idcheck v) s = .next (raised .sequenceError s)) ∧
    (s.sess = .failed → exec (.idcheck v) s = .next (refusedIn s)) ∧
    ReservedBitsRaise 0x9 0x0FFFFF00 s

/-- R152: STATUS runs in every state and shows the five fields at the places of its rule, each by its number. -/
def Obligations.StatusCommand : Prop :=
  ∀ s : State,
    decode 0xA0000000 = .instr .status ∧
    (∀ sess err mode : Nat,
      (s.sess, sess) ∈ [(Sess.unchecked, 0), (Sess.identified, 1), (Sess.configured, 2), (Sess.failed, 3)] →
      (s.err, err) ∈ [(Code.none, 0), (Code.illegalCmd, 1), (Code.configError, 2), (Code.identityMismatch, 3),
        (Code.sequenceError, 4), (Code.sessionFailed, 5)] →
      (s.cfgMode, mode) ∈ [(Mode.normal, 0), (Mode.lowPower, 1), (Mode.highResolution, 2)] →
      exec .status s = .next (success (BitVec.ofNat 32
        (err + 16 * sess + 256 * s.cfgOdr.toNat + 4096 * s.cfgFs.toNat + 16384 * mode)) s)) ∧
    ReservedBitsRaise 0xA 0x0FFFFFFF s ∧
    (∀ w : Word, opcodeOf w = 0xA → w &&& 0x0FFFFFFF ≠ 0 → s.sess = .failed → runCommand w s = .next (refusedIn s))

/-! ### The whole machine -/

/-- R33, R181: the state after reset. -/
def Obligations.ResetState : Prop :=
  State.reset.sess = .unchecked ∧ State.reset.cfgOdr = 0x0 ∧ State.reset.cfgFs = 0b00 ∧
  State.reset.cfgMode = .normal ∧ State.reset.err = .none ∧ State.reset.cmdReady = true ∧ State.reset.rsp = none ∧
  State.reset.inFlight = none

/-- R180, R181, R182 at the transaction level (log 7): a reset gives every field the spec names its reset value and drops a
command in flight with no response. That the host's sequence goes on (log 1) and the index is kept (log 3) is the model's
choice. -/
def Obligations.StepResets : Prop :=
  ∀ (s : State) (rest : List HostInput), s.host = .reset :: rest →
    step s = .next { State.reset with host := rest, index := s.index }

/-- The model's choice (log 2): with nothing issued and nothing in flight the block waits (70_reset_and_hazards.md R181). -/
def Obligations.StepWaitsForACommand : Prop :=
  ∀ s : State, s.host = [] → s.inFlight = none → step s = .next s

/-- R21: every command gives exactly one response, of the rule's shape, and the block is ready again. -/
def Obligations.EveryCommandIsAnswered : Prop :=
  ∀ (w : Word) (s : State), ∃ (t : State) (r : Response),
    runCommand w s = .next t ∧ t.rsp = some r ∧ t.cmdReady = true ∧ t.inFlight = none ∧
    (r.ok = true → r.code = .none) ∧ (r.ok = false → r.code ≠ .none ∧ r.data = 0)

/-- The invariant (R21, R22, R25, R160, R187) holds after reset. -/
def Obligations.ResetSatisfiesInvariant : Prop := BlockInv State.reset

/-- Every step keeps the invariant: R25 and R160 on `err`, R22 on the configuration, R21 and R187 on the ports. -/
def Obligations.StepKeepsInvariant : Prop := ∀ s t : State, BlockInv s → step s = .next t → BlockInv t

/-- Every clock edge, whatever the pins, keeps the invariant. -/
def Obligations.ClockEdgeKeepsInvariant : Prop :=
  ∀ (p : Pins) (s t : State), BlockInv s → clockEdge p s = .next t → BlockInv t

/-- R22: only a CFGLOAD that succeeds writes the configuration; it runs in IDENTIFIED, writes the three fields together
and moves the session to CONFIGURED. -/
def Obligations.ConfigWrittenOnlyByCfgload : Prop :=
  ∀ (w : Word) (s t : State), runCommand w s = .next t → ¬SameConfig s t →
    s.sess = .identified ∧ t.sess = .configured ∧
    ∃ odr rangeG mode, decode w = .instr (.cfgload odr rangeG mode) ∧ t.cfgOdr = odr ∧
      modeBits t.cfgMode = mode ∧ rangeG.toNat = 2 ^ (t.cfgFs.toNat + 1)

/-- R22, R33: outside CONFIGURED no command but STATUS reads the configuration: whatever the three fields hold, the
response and the session come out the same, and the fields are written with the same values or not at all. -/
def Obligations.ConfigReadOnlyWhenConfigured : Prop :=
  ∀ (i : Instr) (s : State) (odr : BitVec 4) (fs : BitVec 2) (m : Mode), i.mnemonic ≠ .status → s.sess ≠ .configured →
    ∃ t u : State, exec i s = .next t ∧ exec i { s with cfgOdr := odr, cfgFs := fs, cfgMode := m } = .next u ∧
      u.rsp = t.rsp ∧ u.sess = t.sess ∧ u.err = t.err ∧ (t.sess = .configured → SameConfig t u) ∧
      (t.sess ≠ .configured → SameConfig s t ∧ u.cfgOdr = odr ∧ u.cfgFs = fs ∧ u.cfgMode = m)

/-- R165, R182: a step that is no reset leaves a failed session failed, with its first error and its configuration. -/
def Obligations.OnlyResetLeavesFailed : Prop :=
  ∀ s t : State, s.sess = .failed → (∀ rest, s.host ≠ .reset :: rest) → step s = .next t → SameArch s t

/-- The session only goes forward (R20, R22, 60_exceptions.md R164, 20_memory.md R47): IDENTIFIED is entered by an IDCHECK
that read 0x33 in UNCHECKED, CONFIGURED by a CFGLOAD in IDENTIFIED. -/
def Obligations.SessionMovesForward : Prop :=
  ∀ (w : Word) (s t : State), runCommand w s = .next t → t.sess ≠ s.sess →
    (s.sess = .unchecked ∧ t.sess = .identified ∧ decode w = .instr (.idcheck 0x33)) ∨
    (s.sess = .identified ∧ t.sess = .configured ∧ ∃ odr rangeG mode, decode w = .instr (.cfgload odr rangeG mode)) ∨
    (s.sess ≠ .failed ∧ t.sess = .failed ∧ t.err ≠ .none)

/-- R34: what each command writes, on success and on a raise. No command touches the host's sequence. -/
def Obligations.AccessByCommand : Prop :=
  ∀ (i : Instr) (s t : State), exec i s = .next t →
    SameHost s t ∧
    (Succeeded t →
      t.err = s.err ∧
      (i.mnemonic ≠ .cfgload → SameConfig s t) ∧
      (i.mnemonic ≠ .cfgload → i.mnemonic ≠ .idcheck → t.sess = s.sess)) ∧
    (¬Succeeded t → SameConfig s t) ∧
    (s.sess ≠ .failed → i = .status → Succeeded t)

/-- R116: a conversion writes no state, so issued again with the same operands in the same session it gives the same
response. -/
def Obligations.ConversionsRepeat : Prop :=
  ∀ (i : Instr) (s t : State), IsConversion i → exec i s = .next t → Succeeded t →
    SameArch s t ∧ exec i t = .next t

/-- R116, R115: a conversion's response depends on its operands and, for ACCCONV alone, on the configuration: two states
in which it runs, whatever else they hold, get one response. -/
def Obligations.ConversionsDependOnlyOnConfig : Prop :=
  ∀ (i : Instr) (s t s' t' : State), IsConversion i → exec i s = .next s' → exec i t = .next t' →
    Succeeded s' → Succeeded t' → (i.mnemonic = .accconv → s.cfgFs = t.cfgFs ∧ s.cfgMode = t.cfgMode) →
    s'.rsp = t'.rsp

/-- STATUS is a window on the whole architectural state (60_exceptions.md R173, 43_identity_status.md R152): two states with one STATUS
response agree in all five fields. -/
def Obligations.StatusShowsTheWholeState : Prop :=
  ∀ s t s' t' : State, exec .status s = .next s' → exec .status t = .next t' → s'.rsp = t'.rsp → SameArch s t

/-! ### Arithmetic (41_conversion.md, 00_scope.md R7) -/

/-- R101: the laws of `decodeSigned(v, 16)`, on the value DECODE answers read as a signed number. -/
def Obligations.DecodeSignedLaws : Prop :=
  (∀ raw : Raw, -32768 ≤ decodeSigned16 raw ∧ decodeSigned16 raw ≤ 32767) ∧
  (∀ raw : Raw, decodeSigned16 (BitVec.ofNat 16 (decodeSigned16 raw % 65536).toNat) = decodeSigned16 raw) ∧
  (decodeSigned16 0x0000 = 0 ∧ decodeSigned16 0x7FFF = 32767 ∧ decodeSigned16 0x8000 = -32768 ∧
    decodeSigned16 0xFFFF = -1) ∧
  (∀ raw : Raw, decodeSigned16 raw % 65536 = raw.toNat) ∧
  (∀ c : Int, -32768 ≤ c → c ≤ 32767 → ∃ raw : Raw, decodeSigned16 raw = c)

/-- R100: the general decoder, at every width of at least one bit (log 10), with the block's at 16; an input that does
not fit is refused (93_implementation_defined.md U1). -/
def Obligations.GeneralDecodeSigned : Prop :=
  ∀ v n : Nat, 0 < n →
    (v < 2 ^ n → ∃ c : Int, decodeSigned v n = some c ∧ c % 2 ^ n = v ∧ -(2 ^ (n - 1)) ≤ c ∧ c < 2 ^ (n - 1)) ∧
    (2 ^ n ≤ v → decodeSigned v n = none) ∧
    (∀ raw : Raw, decodeSigned raw.toNat 16 = some (decodeSigned16 raw))

/-- R106 (and R105): TEMPCONV's response, read as a signed number of 1/256 degree, is the source's formula exactly, and
lies in the stated range. -/
def Obligations.TemperatureIsExact : Prop :=
  ∀ (raw : Raw) (s : State), s.sess ≠ .failed → ∃ (t : State) (d : Word),
    exec (.tempconv raw) s = .next t ∧ t.rsp = some ⟨true, .none, d⟩ ∧
    d.toInt = raw.toInt + 6400 ∧ (d.toInt : ℚ) / 256 = (raw.toInt : ℚ) / 256 + 25 ∧
    -26368 ≤ d.toInt ∧ d.toInt ≤ 39167

/-- R108, R111, R113, R114: in CONFIGURED, ACCCONV's response, read as a signed number of 1/25,600,000 g, is the source's formula
in exact rational arithmetic, for every well-formed scale table and for the block's own. -/
def Obligations.AccelerationIsExact : Prop :=
  (∀ (scale : BitVec 2 → Mode → Nat) (raw : Raw) (s : State), ScaleWellFormed scale →
    ∃ d : Word, (accconvRule scale raw s).rsp = some ⟨true, .none, d⟩ ∧
      d.toInt = raw.toInt * scale s.cfgFs s.cfgMode * (256 / modeFactor s.cfgMode : Nat) ∧
      -2147483648 ≤ d.toInt ∧ d.toInt ≤ 2147418112 ∧
      (d.toInt : ℚ) / 25600000 =
        ((raw.toInt : ℚ) / (modeFactor s.cfgMode : ℚ)) * ((scale s.cfgFs s.cfgMode : ℚ) / 100) / 1000) ∧
  (∀ (raw : Raw) (s : State), s.sess = .configured → ∃ d : Word,
    exec (.accconv raw) s = .next (success d s) ∧
    (d.toInt : ℚ) / 25600000 = accelerationG scaleC s.cfgFs s.cfgMode raw)

/-- The source's vector (95_test_vectors.md L1-12): at 2 g and normal, 64 counts are 0.00391 g, and one count is the
exact 0.00006109375 g of R114. -/
def Obligations.AccelerationOfTheSourceVector : Prop :=
  ∀ s : State, s.sess = .configured → s.cfgFs = 0b00 → s.cfgMode = .normal →
    exec (.accconv 0x0040) s = .next (success 0x00018700 s) ∧
    exec (.accconv 0x0001) s = .next (success 0x0000061C s) ∧
    (0x00018700 : ℚ) / 25600000 = 391 / 100000 ∧ (0x0000061C : ℚ) / 25600000 = 6109375 / 100000000000

/-- A nonzero sample never reads as zero, in any configuration (95_test_vectors.md L1-15; R7, R112). -/
def Obligations.NonzeroSampleConvertsToNonzero : Prop :=
  ∀ (raw : Raw) (s : State), s.sess = .configured → raw ≠ 0 →
    ∃ d : Word, exec (.accconv raw) s = .next (success d s) ∧ d ≠ 0

/-- R7: the block's scale table is well formed, whatever its free entries are (log 5). -/
def Obligations.ScaleTableIsWellFormed : Prop :=
  ScaleWellFormed scaleC ∧ ∀ fill, ScaleWellFormed (scaleOf fill)

/-- The model's choice (log 5): every well-formed table is the table of some fill, so the free entries assume nothing
beyond R7. -/
def Obligations.EveryWellFormedScaleTableIsAllowed : Prop :=
  ∀ table, ScaleWellFormed table → ∃ fill, scaleOf fill = table

/-! ### The control images (42_config_encoder.md, 40_register_map.md R86, R87) -/

/-- R138: the fields of each image are disjoint, and each reads back the value put in it. -/
def Obligations.ControlImageFieldsReadBack : Prop :=
  ∀ (odr : BitVec 4) (fs : BitVec 2) (m : Mode),
    cr1AxisEnables.read (cr1Image odr m) = 7 ∧
    cr1Lp.read (cr1Image odr m) = (if m = .lowPower then 1 else 0) ∧
    cr1Odr.read (cr1Image odr m) = odr.toNat ∧
    cr4Bdu.read (cr4Image fs m) = 1 ∧ cr4Fs.read (cr4Image fs m) = fs.toNat ∧
    cr4Hr.read (cr4Image fs m) = (if m = .highResolution then 1 else 0) ∧
    cr4Unnamed6.read (cr4Image fs m) = 0 ∧ cr4Unnamed2to0.read (cr4Image fs m) = 0 ∧
    cr1Base &&& (odr.setWidth 8 <<< 4) = 0 ∧ cr1Base &&& lpBit m = 0 ∧ (odr.setWidth 8 <<< 4) &&& lpBit m = 0 ∧
    cr4Base &&& (fs.setWidth 8 <<< 4) = 0 ∧ cr4Base &&& hrBit m = 0 ∧ (fs.setWidth 8 <<< 4) &&& hrBit m = 0

/-- R139: under one configuration both images are built, with no error of their own, and bit 3 is never set in both. -/
def Obligations.LowPowerAndHighResolutionExclude : Prop :=
  ∀ s : State, s.sess = .configured → ∃ d e : Word,
    exec .buildcr1 s = .next (success d s) ∧ exec .buildcr4 s = .next (success e s) ∧
    (d.getLsbD 3 = true ↔ s.cfgMode = .lowPower) ∧ (e.getLsbD 3 = true ↔ s.cfgMode = .highResolution) ∧
    ¬(d.getLsbD 3 = true ∧ e.getLsbD 3 = true)

/-! ### The clock (70_reset_and_hazards.md R180, R187) -/

/-- R180: an edge with `rst_n` = 0 resets every field, drops the command in flight and holds `cmd_ready` = 0; the first
edge with `rst_n` = 1 sets `cmd_ready` = 1. The model's choices: nothing else happens at that edge, so a command presented
there is not accepted (log 15), and the host's sequence (log 1) and the index (log 3) are kept over a reset. -/
def Obligations.ResetEdges : Prop :=
  ∀ (p q : Pins) (s : State), p.rstN = false → q.rstN = true → ∃ t,
    clockEdge p s = .next t ∧
    t = { State.reset with cmdReady := false, host := s.host, index := s.index } ∧
    clockEdge q t = .next { State.reset with host := s.host, index := s.index }

/-- R187, acceptance: at an edge with `rst_n` = `cmd_valid` = `cmd_ready` = 1 and no command in flight the command is taken, `cmd_ready` and
`rsp_valid` go to 0, and no architectural field changes; with `cmd_valid` = 0 nothing changes. The model's choices: the
step is not applied before the response edge, so no field changes here (log 6), and the command takes the next index (log 3). -/
def Obligations.AcceptanceEdge : Prop :=
  ∀ (p : Pins) (s : State), p.rstN = true → s.cmdReady = true → s.inFlight = none →
    (p.cmdValid = true → clockEdge p s =
      .next { s with cmdReady := false, rsp := none, inFlight := some ⟨p.cmd, Config.cmdLatency⟩,
                     index := s.index + 1 }) ∧
    (p.cmdValid = false → clockEdge p s = .next s)

/-- R187, R184: `CMD_LATENCY` edges after its acceptance, whatever the pins show meanwhile, the command has been run, once,
in the state it was accepted in; before that there is no response, the block is not ready and no field has changed (that
no field changes before the response edge is the model's choice, log 6). So the handshake does to the ports exactly what
one step does with the command issued. -/
def Obligations.HandshakeRefinesStep : Prop :=
  ∀ (s : State) (w : Word) (ps : List Pins), s.inFlight = none → s.cmdReady = true →
    (∀ p ∈ ps, p.rstN = true) →
    (ps.length = Config.cmdLatency →
      clockRun (⟨true, true, w⟩ :: ps) s = step { s with host := .command w :: s.host }) ∧
    (ps.length < Config.cmdLatency → ∃ t,
      clockRun (⟨true, true, w⟩ :: ps) s = .next t ∧ t.rsp = none ∧ t.cmdReady = false ∧ SameArch s t)

/-- R184: "No result depends on `CMD_LATENCY`": from a command in flight at any distance from its response, that many
edges give one state. -/
def Obligations.LatencyDoesNotMatter : Prop :=
  ∀ (s : State) (w : Word) (m n : Nat) (ps qs : List Pins), (∀ p ∈ ps, p.rstN = true) → (∀ q ∈ qs, q.rstN = true) →
    ps.length = m + 1 → qs.length = n + 1 →
    clockRun ps { s with inFlight := some ⟨w, m + 1⟩ } = clockRun qs { s with inFlight := some ⟨w, n + 1⟩ }

/-! ### The host's duties (20_memory.md R47 to R52; log 12) -/

/-- The host's view at the start of a session right after reset satisfies its invariant. -/
def Obligations.HostStartSatisfiesInvariant : Prop := HostInv (.start State.reset false)

/-- Every action within the duties keeps the invariant: the images the host holds are the images of the latched
configuration (R52, R22), and the block keeps its own. -/
def Obligations.HostActionKeepsInvariant : Prop :=
  ∀ (p : HostParams) (a : HostAction) (v u : HostView), HostInv v → v.act p a = some u → HostInv u

/-- R47, R52: a host within its duties, in any run from reset, writes a configuration register only while the block's
session has passed IDCHECK and not failed, and writes to CTRL_REG1 and CTRL_REG4 the images of the configuration the
block has latched. -/
def Obligations.HostWritesTheLatchedImages : Prop :=
  ∀ (p : HostParams) (as : List HostAction) (v u : HostView) (reg value : Byte),
    HostView.run p as (.start State.reset false) = some v → v.act p (.write reg value) = some u →
    (v.block.sess = .identified ∨ v.block.sess = .configured) ∧
    (reg = 0x20 → v.block.sess = .configured ∧ value = cr1Image v.block.cfgOdr v.block.cfgMode) ∧
    (reg = 0x23 → v.block.sess = .configured ∧ value = cr4Image v.block.cfgFs v.block.cfgMode) ∧
    (reg = 0x1F → value = p.tempCfgValue) ∧ reg ∈ [(0x20 : Byte), 0x23, 0x1F]

/-- R50, R51, R48, R49, R47: what breaks a duty: a transport operation before the last write has settled, anything but a reset, a settle
or a further failure after a failed transfer, a pair read high byte first or low byte twice, a two-byte read by a
host that has not shown it safe, and sampling in a session that has failed (log 18). -/
def Obligations.BrokenDutiesStopTheRun : Prop :=
  ∀ (p : HostParams) (v : HostView) (reg x y w' : Byte) (w : Word),
    (v.unsettled = true → v.act p (.read reg x) = none ∧ v.act p (.write reg x) = none ∧
      v.act p (.readTwo reg x y) = none) ∧
    (v.transferFailed = true → v.act p (.issue w) = none ∧ v.act p (.read reg x) = none ∧
      v.act p (.write reg x) = none ∧ v.act p (.readTwo reg x y) = none) ∧
    (∀ c : Channel, v.lowOf c = none → v.act p (.read (regAddress c.highReg) w') = none) ∧
    (∀ c : Channel, v.lowOf c ≠ none → v.act p (.read (regAddress c.lowReg) w') = none) ∧
    (p.blockReadsShownSafe = false → v.act p (.readTwo reg x y) = none) ∧
    (v.block.sess = .failed → ∀ base ∈ [(0x0C : Byte), 0x28, 0x2A, 0x2C],
      v.act p (.read base x) = none ∧ v.act p (.read (base + 1) x) = none ∧ v.act p (.readTwo base x y) = none)

/-- R183 steps 2 to 5: from reset, with a device that returns 0x33, the boot sequence with any data rate, range and mode the
tables hold is within the duties in either write order, and leaves the block CONFIGURED with them and both images written. -/
def Obligations.BootSequenceConfigures : Prop :=
  ∀ (p : HostParams) (odr : BitVec 4) (rangeG : Byte) (fs mode : BitVec 2) (m : Mode),
    (rangeG, fs) ∈ [((2 : Byte), (0b00 : BitVec 2)), (4, 0b01), (8, 0b10), (16, 0b11)] →
    (mode, m) ∈ [((0b00 : BitVec 2), Mode.normal), (0b01, .lowPower), (0b10, .highResolution)] → ∃ v,
    HostView.run p (bootActions p 0x33 odr rangeG mode (cr1Image odr m) (cr4Image fs m)) (.start State.reset false) =
      some v ∧
    v.block.sess = .configured ∧ v.block.cfgOdr = odr ∧ v.block.cfgFs = fs ∧ v.block.cfgMode = m ∧
    v.wroteCr1 = true ∧ v.wroteCr4 = true ∧ v.unsettled = false

/-- R183 step 3, R47: a device that returns any other byte fails the session, and then no control register can be written
and no channel sampled. -/
def Obligations.UnknownDeviceStopsTheBoot : Prop :=
  ∀ (p : HostParams) (b : Byte), b ≠ 0x33 → ∃ v,
    HostView.run p [.issue (encode (.regaddr 0)), .read (regAddress .whoAmI) b, .issue (encode (.idcheck b))]
      (.start State.reset false) = some v ∧
    v.block.sess = .failed ∧ v.block.err = .identityMismatch ∧ (∀ reg value, v.act p (.write reg value) = none) ∧
    ∀ base ∈ [(0x0C : Byte), 0x28, 0x2A, 0x2C], ∀ value,
      v.act p (.read base value) = none ∧ v.act p (.read (base + 1) value) = none

/-- R183 step 6, R42, R48, R83: in CONFIGURED, one sample of any channel, whatever bytes the device returns, reads the
channel's two registers low byte first, is within the duties, changes no field, and ends with the channel's conversion of
the little-endian pair answered. -/
def Obligations.SamplingConverts : Prop :=
  ∀ (p : HostParams) (v : HostView) (c : Channel) (base : Byte) (conversion : Raw → Instr) (lo hi : Byte) (raw : Raw),
    (c, base, conversion) ∈ [(Channel.temperature, (0x0C : Byte), Instr.tempconv), (.x, 0x28, .accconv),
      (.y, 0x2A, .accconv), (.z, 0x2C, .accconv)] →
    raw = BitVec.ofNat 16 (0x100 * hi.toNat + lo.toNat) →
    v.block.sess = .configured → v.unsettled = false → v.transferFailed = false → v.lowOf c = none →
    sampleActions c lo hi = [.read base lo, .read (base + 1) hi, .issue (encode (.assemble lo hi)),
      .issue (encode (conversion raw))] ∧
    ∃ u t : _, HostView.run p (sampleActions c lo hi) v = some u ∧ SameArch v.block u.block ∧
      exec (conversion raw) v.block = .next t ∧ Succeeded t ∧ u.block.rsp = t.rsp

/-! ### The output ports (10_state.md R32) -/

/-- R32, R85, R180, R187 at the output ports: from acceptance until the response `cmd_ready` = `rsp_valid` = 0 and there is
no response; at the response edge both are 1 and the ports show one response of R21's shape, the one the command's step
gives; they hold it over every edge at which no command is presented; an edge with `rst_n` = 0 shows neither ready nor valid;
and `dev_addr` is 0x18 throughout. That no response is shown while `rsp_valid` = 0 is the model's choice (log 4). -/
def Obligations.OutputPorts : Prop :=
  ∀ (s : State) (w : Word) (ps : List Pins), s.inFlight = none → s.cmdReady = true → (∀ p ∈ ps, p.rstN = true) →
    (outputs s).devAddr = 0x18 ∧
    (ps.length < Config.cmdLatency → ∃ t,
      clockRun (⟨true, true, w⟩ :: ps) s = .next t ∧ outputs t = ⟨false, false, none, 0x18⟩) ∧
    (ps.length = Config.cmdLatency → ∃ (t : State) (r : Response),
      clockRun (⟨true, true, w⟩ :: ps) s = .next t ∧ runCommand w (accept w s) = .next t ∧ t.rsp = some r ∧
      (r.ok = true → r.code = .none) ∧ (r.ok = false → r.code ≠ .none ∧ r.data = 0) ∧
      (∀ idle : List Pins, (∀ p ∈ idle, p.rstN = true ∧ p.cmdValid = false) → ∃ u,
        clockRun idle t = .next u ∧ outputs u = ⟨true, true, some r, 0x18⟩)) ∧
    (∀ p : Pins, p.rstN = false → ∃ t, clockEdge p s = .next t ∧ outputs t = ⟨false, false, none, 0x18⟩)
end

