-- ==== Sys2Proof/Laws/Decode.lean ====
section
/-! SUPPORT. What the decoder says of a word, and that the opcode map is unambiguous. -/

namespace Sys2Proof

/-- An opcode belongs to a command exactly when it is that command's row's opcode (R63). -/
theorem ofOpcode_eq_some_iff (op : BitVec 4) (m : Mnemonic) : Mnemonic.ofOpcode op = some m ↔ op = m.row.op := by
  revert op m
  have h : ∀ op : BitVec 4, ∀ m ∈ [Mnemonic.regaddr, .decode, .assemble, .tempconv, .accconv, .cfgload, .buildcr1,
      .buildcr4, .idcheck, .status], Mnemonic.ofOpcode op = some m ↔ op = m.row.op := by decide
  intro op m
  exact h op m (by cases m <;> simp)

/-- The decoder accepts a word as a command exactly when it has the row's opcode and no reserved bit (R65). -/
theorem decode_eq_instr_iff (w : Word) (i : Instr) :
    decode w = .instr i ↔
      ∃ m : Mnemonic, opcodeOf w = m.row.op ∧ w &&& m.row.mask = m.row.pattern ∧ i = fieldsOf m w := by
  unfold decode
  cases h : Mnemonic.ofOpcode (opcodeOf w) with
  | none =>
    simp only [reduceCtorEq, false_iff, not_exists, not_and]
    intro m hm
    rw [(ofOpcode_eq_some_iff _ _).2 hm] at h
    cases h
  | some m =>
    have hm := (ofOpcode_eq_some_iff _ _).1 h
    by_cases hp : w &&& m.row.mask = m.row.pattern
    · simp only [hp, ↓reduceIte, Decoded.instr.injEq]
      constructor
      · rintro rfl; exact ⟨m, hm, hp, rfl⟩
      · rintro ⟨m', h1, -, rfl⟩
        rw [(ofOpcode_eq_some_iff _ _).2 h1] at h
        cases h; rfl
    · simp only [hp, ↓reduceIte, reduceCtorEq, false_iff, not_exists, not_and]
      rintro m' h1 h2
      rw [(ofOpcode_eq_some_iff _ _).2 h1] at h
      cases h; exact absurd h2 hp

/-- No two rows of the opcode map share a word: some bit that both masks fix differs (R63). -/
theorem opcodeTable_disjoint :
    opcodeTable.Pairwise (fun a b => a.mask &&& b.mask &&& (a.pattern ^^^ b.pattern) ≠ 0) := by decide

@[simp] theorem mnemonic_fieldsOf (m : Mnemonic) (w : Word) : (fieldsOf m w).mnemonic = m := by cases m <;> rfl

end Sys2Proof
end

