-- ==== Sys2Proof/Laws/Host.lean ====
section
/-! SUPPORT. What a read does to the host's view, said once. -/

namespace Sys2Proof.Machine

/-- A read leaves the block and the images alone. -/
theorem readByte_frame {v u : HostView} {reg value : Byte} (h : v.readByte reg value = some u) :
    u.block = v.block ∧ u.cr1 = v.cr1 ∧ u.cr4 = v.cr4 ∧ u.unsettled = v.unsettled ∧
    u.transferFailed = v.transferFailed := by
  unfold HostView.readByte at h
  repeat' split at h
  all_goals first | cases h; simp | cases h

/-- Outside FAILED the low register of a pair that is not open opens it. -/
theorem readByte_low {v : HostView} {c : Channel} (hu : v.unsettled = false) (hs : v.block.sess ≠ .failed)
    (h : v.lowOf c = none) (lo : Byte) :
    v.readByte (regAddress c.lowReg) lo = some { v with lows := (c, lo) :: v.lows } := by
  cases c <;> simp [HostView.readByte, hu, hs, regAddress, Channel.lowReg, channelOfLow, channels, h]

/-- Outside FAILED the high register of an open pair completes it. -/
theorem readByte_high {v : HostView} {c : Channel} {lo : Byte} (hu : v.unsettled = false) (hs : v.block.sess ≠ .failed)
    (h : v.lowOf c = some lo) (hi : Byte) : v.readByte (regAddress c.highReg) hi =
      some { v with lows := v.lows.filter (fun e => e.1 != c), samples := (c, lo, hi) :: v.samples } := by
  cases c <;>
    simp [HostView.readByte, hu, hs, regAddress, Channel.lowReg, Channel.highReg, channelOfLow, channelOfHigh, channels, h]

/-- A session that is over is not sampled (R47). -/
theorem readByte_failed {v : HostView} (hs : v.block.sess = .failed) (c : Channel) (value : Byte) :
    v.readByte (regAddress c.lowReg) value = none ∧ v.readByte (regAddress c.highReg) value = none := by
  cases c <;> simp [HostView.readByte, hs, isOutputReg, regAddress, Channel.lowReg, Channel.highReg, channelOfLow,
    channelOfHigh, channels]

end Sys2Proof.Machine
end

