-- ==== Sys2Proof/Laws/Operands.lean ====
section
/-! SUPPORT. The operand functions in the library's terms, and the bounds that keep `wrap_32` exact. -/

namespace Sys2Proof.Machine

/-- The decoder is the two's-complement reading (41_conversion.md R100). -/
theorem decodeSigned16_eq_toInt (raw : Raw) : decodeSigned16 raw = raw.toInt := by
  simp only [decodeSigned16, BitVec.toInt_eq_msb_cond, BitVec.msb_eq_getLsbD_last]
  norm_num

theorem decodeSigned16_bounds (raw : Raw) : -32768 ≤ decodeSigned16 raw ∧ decodeSigned16 raw ≤ 32767 := by
  rw [decodeSigned16_eq_toInt]
  have h1 := raw.le_toInt
  have h2 := raw.toInt_le
  norm_num at h1 h2
  omega

/-- `wrap_32` keeps every integer of 32 signed bits (00_scope.md R9). -/
theorem toInt_wrap32 {i : Int} (h1 : -2147483648 ≤ i) (h2 : i ≤ 2147483647) : (wrap32 i).toInt = i := by
  simp only [wrap32, BitVec.toInt_ofInt]
  rw [Int.bmod_eq_of_le] <;> norm_num <;> omega

theorem countGain_mul_modeFactor (m : Mode) : countGain m * modeFactor m = 256 := by cases m <;> rfl

theorem countGain_pos (m : Mode) : 0 < countGain m := by cases m <;> decide

end Sys2Proof.Machine
end

