-- ==== Sys2Proof/Laws/State.lean ====
section
/-! SUPPORT. One lemma per field per update of State, so that no proof unfolds a record update. -/

namespace Sys2Proof.Machine

@[simp] theorem respond_sess (ok : Bool) (code : Code) (data : Word) (s : State) : (respond ok code data s).sess = s.sess := rfl
@[simp] theorem respond_cfgOdr (ok : Bool) (code : Code) (data : Word) (s : State) : (respond ok code data s).cfgOdr = s.cfgOdr := rfl
@[simp] theorem respond_cfgFs (ok : Bool) (code : Code) (data : Word) (s : State) : (respond ok code data s).cfgFs = s.cfgFs := rfl
@[simp] theorem respond_cfgMode (ok : Bool) (code : Code) (data : Word) (s : State) : (respond ok code data s).cfgMode = s.cfgMode := rfl
@[simp] theorem respond_err (ok : Bool) (code : Code) (data : Word) (s : State) : (respond ok code data s).err = s.err := rfl
@[simp] theorem respond_cmdReady (ok : Bool) (code : Code) (data : Word) (s : State) : (respond ok code data s).cmdReady = true := rfl
@[simp] theorem respond_rsp (ok : Bool) (code : Code) (data : Word) (s : State) : (respond ok code data s).rsp = some ⟨ok, code, data⟩ := rfl
@[simp] theorem respond_inFlight (ok : Bool) (code : Code) (data : Word) (s : State) : (respond ok code data s).inFlight = none := rfl
@[simp] theorem respond_host (ok : Bool) (code : Code) (data : Word) (s : State) : (respond ok code data s).host = s.host := rfl
@[simp] theorem respond_index (ok : Bool) (code : Code) (data : Word) (s : State) : (respond ok code data s).index = s.index := rfl

@[simp] theorem succeed_sess (data : Word) (s : State) : (succeed data s).sess = s.sess := rfl
@[simp] theorem succeed_cfgOdr (data : Word) (s : State) : (succeed data s).cfgOdr = s.cfgOdr := rfl
@[simp] theorem succeed_cfgFs (data : Word) (s : State) : (succeed data s).cfgFs = s.cfgFs := rfl
@[simp] theorem succeed_cfgMode (data : Word) (s : State) : (succeed data s).cfgMode = s.cfgMode := rfl
@[simp] theorem succeed_err (data : Word) (s : State) : (succeed data s).err = s.err := rfl
@[simp] theorem succeed_cmdReady (data : Word) (s : State) : (succeed data s).cmdReady = true := rfl
@[simp] theorem succeed_rsp (data : Word) (s : State) : (succeed data s).rsp = some ⟨true, .none, data⟩ := rfl
@[simp] theorem succeed_inFlight (data : Word) (s : State) : (succeed data s).inFlight = none := rfl
@[simp] theorem succeed_host (data : Word) (s : State) : (succeed data s).host = s.host := rfl
@[simp] theorem succeed_index (data : Word) (s : State) : (succeed data s).index = s.index := rfl

@[simp] theorem raise_sess (e : Code) (s : State) : (raise e s).sess = .failed := rfl
@[simp] theorem raise_cfgOdr (e : Code) (s : State) : (raise e s).cfgOdr = s.cfgOdr := rfl
@[simp] theorem raise_cfgFs (e : Code) (s : State) : (raise e s).cfgFs = s.cfgFs := rfl
@[simp] theorem raise_cfgMode (e : Code) (s : State) : (raise e s).cfgMode = s.cfgMode := rfl
@[simp] theorem raise_err (e : Code) (s : State) : (raise e s).err = e := rfl
@[simp] theorem raise_cmdReady (e : Code) (s : State) : (raise e s).cmdReady = true := rfl
@[simp] theorem raise_rsp (e : Code) (s : State) : (raise e s).rsp = some ⟨false, e, 0⟩ := rfl
@[simp] theorem raise_inFlight (e : Code) (s : State) : (raise e s).inFlight = none := rfl
@[simp] theorem raise_host (e : Code) (s : State) : (raise e s).host = s.host := rfl
@[simp] theorem raise_index (e : Code) (s : State) : (raise e s).index = s.index := rfl

@[simp] theorem refuse_sess (s : State) : (refuse s).sess = s.sess := rfl
@[simp] theorem refuse_cfgOdr (s : State) : (refuse s).cfgOdr = s.cfgOdr := rfl
@[simp] theorem refuse_cfgFs (s : State) : (refuse s).cfgFs = s.cfgFs := rfl
@[simp] theorem refuse_cfgMode (s : State) : (refuse s).cfgMode = s.cfgMode := rfl
@[simp] theorem refuse_err (s : State) : (refuse s).err = s.err := rfl
@[simp] theorem refuse_cmdReady (s : State) : (refuse s).cmdReady = true := rfl
@[simp] theorem refuse_rsp (s : State) : (refuse s).rsp = some ⟨false, .sessionFailed, 0⟩ := rfl
@[simp] theorem refuse_inFlight (s : State) : (refuse s).inFlight = none := rfl
@[simp] theorem refuse_host (s : State) : (refuse s).host = s.host := rfl
@[simp] theorem refuse_index (s : State) : (refuse s).index = s.index := rfl

@[simp] theorem accept_sess (w : Word) (s : State) : (accept w s).sess = s.sess := rfl
@[simp] theorem accept_cfgOdr (w : Word) (s : State) : (accept w s).cfgOdr = s.cfgOdr := rfl
@[simp] theorem accept_cfgFs (w : Word) (s : State) : (accept w s).cfgFs = s.cfgFs := rfl
@[simp] theorem accept_cfgMode (w : Word) (s : State) : (accept w s).cfgMode = s.cfgMode := rfl
@[simp] theorem accept_err (w : Word) (s : State) : (accept w s).err = s.err := rfl
@[simp] theorem accept_cmdReady (w : Word) (s : State) : (accept w s).cmdReady = false := rfl
@[simp] theorem accept_rsp (w : Word) (s : State) : (accept w s).rsp = none := rfl
@[simp] theorem accept_inFlight (w : Word) (s : State) : (accept w s).inFlight = some ⟨w, Config.cmdLatency⟩ := rfl
@[simp] theorem accept_host (w : Word) (s : State) : (accept w s).host = s.host := rfl
@[simp] theorem accept_index (w : Word) (s : State) : (accept w s).index = s.index + 1 := rfl

@[simp] theorem applyReset_sess (s : State) : (applyReset s).sess = .unchecked := rfl
@[simp] theorem applyReset_cfgOdr (s : State) : (applyReset s).cfgOdr = 0 := rfl
@[simp] theorem applyReset_cfgFs (s : State) : (applyReset s).cfgFs = 0 := rfl
@[simp] theorem applyReset_cfgMode (s : State) : (applyReset s).cfgMode = .normal := rfl
@[simp] theorem applyReset_err (s : State) : (applyReset s).err = .none := rfl
@[simp] theorem applyReset_cmdReady (s : State) : (applyReset s).cmdReady = true := rfl
@[simp] theorem applyReset_rsp (s : State) : (applyReset s).rsp = none := rfl
@[simp] theorem applyReset_inFlight (s : State) : (applyReset s).inFlight = none := rfl
@[simp] theorem applyReset_host (s : State) : (applyReset s).host = s.host := rfl
@[simp] theorem applyReset_index (s : State) : (applyReset s).index = s.index := rfl

@[simp] theorem issueNext_sess (w : Word) (s : State) : (issueNext w s).sess = s.sess := rfl
@[simp] theorem issueNext_cfgOdr (w : Word) (s : State) : (issueNext w s).cfgOdr = s.cfgOdr := rfl
@[simp] theorem issueNext_cfgFs (w : Word) (s : State) : (issueNext w s).cfgFs = s.cfgFs := rfl
@[simp] theorem issueNext_cfgMode (w : Word) (s : State) : (issueNext w s).cfgMode = s.cfgMode := rfl
@[simp] theorem issueNext_err (w : Word) (s : State) : (issueNext w s).err = s.err := rfl
@[simp] theorem issueNext_cmdReady (w : Word) (s : State) : (issueNext w s).cmdReady = s.cmdReady := rfl
@[simp] theorem issueNext_rsp (w : Word) (s : State) : (issueNext w s).rsp = s.rsp := rfl
@[simp] theorem issueNext_inFlight (w : Word) (s : State) : (issueNext w s).inFlight = none := rfl
@[simp] theorem issueNext_host (w : Word) (s : State) : (issueNext w s).host = .command w :: s.host := rfl
@[simp] theorem issueNext_index (w : Word) (s : State) : (issueNext w s).index = s.index := rfl

end Sys2Proof.Machine
end

