-- ==== Sys2Proof/Laws/Ops.lean ====
section
/-! SUPPORT. What each shared operation can do, said once: the gate, a command behind it, the order of checks, and that
a response forgets the handshake it ends. -/

namespace Sys2Proof.Machine

/-- A command's own rule, behind the gate. -/
def ruleOf : Instr → State → State
  | .regaddr name => regaddrRule name
  | .decode raw => succeed (wrap32 (decodeSigned16 raw))
  | .assemble lo hi => succeed (zext32 (assembleSample lo hi))
  | .tempconv raw => succeed (wrap32 (tempFx raw))
  | .accconv raw => accconvRule scaleC raw
  | .cfgload odr rangeG mode => cfgloadRule odr rangeG mode
  | .buildcr1 => fun t => succeed (zext32 (cr1Image t.cfgOdr t.cfgMode)) t
  | .buildcr4 => fun t => succeed (zext32 (cr4Image t.cfgFs t.cfgMode)) t
  | .idcheck v => idcheckRule v
  | .status => fun t => succeed (zext32 (statusBits t)) t

/-- Every command is its rule behind the gate. -/
theorem exec_eq_gated (i : Instr) (s : State) : exec i s = .next (gated i.mnemonic (ruleOf i) s) := by
  cases i <;> rfl

theorem gated_run {m : Mnemonic} {s : State} (h : gate m s.sess = .run) (rule : State → State) :
    gated m rule s = rule s := by simp [gated, h]

theorem gated_outOfSequence {m : Mnemonic} {s : State} (h : gate m s.sess = .outOfSequence) (rule : State → State) :
    gated m rule s = raise .sequenceError s := by simp [gated, h]

theorem gated_refused {m : Mnemonic} {s : State} (h : gate m s.sess = .refused) (rule : State → State) :
    gated m rule s = refuse s := by simp [gated, h]

/-- The three things the gate can do. -/
theorem gated_cases (m : Mnemonic) (rule : State → State) (s : State) :
    (gate m s.sess = .run ∧ gated m rule s = rule s) ∨
    (gate m s.sess = .outOfSequence ∧ gated m rule s = raise .sequenceError s) ∨
    (gate m s.sess = .refused ∧ gated m rule s = refuse s) := by
  cases h : gate m s.sess <;> simp [gated, h]

/-- The gate refuses exactly in FAILED, STATUS apart. -/
theorem gate_refused_iff (m : Mnemonic) (x : Sess) : gate m x = .refused ↔ x = .failed ∧ m ≠ .status := by
  cases m <;> cases x <;> simp [gate]

/-- REGADDR's rule answers the address, or raises ILLEGAL_CMD. -/
theorem regaddrRule_cases (name : BitVec 4) (s : State) :
    (∃ a, regMapRom[name.toNat]? = some a ∧ regaddrRule name s = succeed (zext32 a) s) ∨
    (12 ≤ name.toNat ∧ regaddrRule name s = raise .illegalCmd s) := by
  cases h : regMapRom[name.toNat]? with
  | some a => exact .inl ⟨a, rfl, by simp [regaddrRule, h]⟩
  | none => exact .inr ⟨by simpa [regMapRom] using h, by simp [regaddrRule, h]⟩

/-- CFGLOAD's rule latches a range and a mode that have codes, or raises CONFIG_ERROR. -/
theorem cfgloadRule_cases (odr : BitVec 4) (rangeG : Byte) (mode : BitVec 2) (s : State) :
    (∃ fs m, fsCodeRom rangeG = some fs ∧ modeOfCode mode = some m ∧ cfgloadRule odr rangeG mode s =
      succeed 0 { s with cfgOdr := odr, cfgFs := fs, cfgMode := m, sess := .configured }) ∨
    ((fsCodeRom rangeG = none ∨ modeOfCode mode = none) ∧ cfgloadRule odr rangeG mode s = raise .configError s) := by
  cases hf : fsCodeRom rangeG <;> cases hm : modeOfCode mode <;> simp [cfgloadRule, hf, hm]

/-- IDCHECK's rule opens the session on 0x33, or raises IDENTITY_MISMATCH. -/
theorem idcheckRule_cases (v : Byte) (s : State) :
    (v = 0x33 ∧ idcheckRule v s = succeed 1 { s with sess := .identified }) ∨
    (v ≠ 0x33 ∧ idcheckRule v s = raise .identityMismatch s) := by
  by_cases h : v = 0x33
  · exact .inl ⟨h, by subst h; rfl⟩
  · exact .inr ⟨h, by simp only [idcheckRule, isKnownDevice, whoAmIValue, beq_iff_eq, h, ↓reduceIte]⟩

/-- The three ways a command word ends (R163): the refusal, ILLEGAL_CMD, or the decoded command. -/
theorem runCommand_cases (w : Word) (s : State) :
    (s.sess = .failed ∧ w ≠ statusWord ∧ runCommand w s = .next (refuse s)) ∨
    (¬(s.sess = .failed ∧ w ≠ statusWord) ∧ ∃ why, decode w = .illegal why ∧
      runCommand w s = .next (raise .illegalCmd s)) ∨
    (¬(s.sess = .failed ∧ w ≠ statusWord) ∧ ∃ i, decode w = .instr i ∧ runCommand w s = exec i s) := by
  by_cases h : s.sess = .failed ∧ w ≠ statusWord
  · exact .inl ⟨h.1, h.2, by simp [runCommand, h]⟩
  · cases hd : decode w with
    | illegal why => exact .inr (.inl ⟨h, why, rfl, by simp [runCommand, h, hd]⟩)
    | instr i => exact .inr (.inr ⟨h, i, rfl, by simp [runCommand, h, hd]⟩)

/-- A response ends the handshake, so it does not depend on the state the handshake was in (R187). -/
theorem respond_congr {s t : State} (ok : Bool) (code : Code) (data : Word) (h : SameArch s t) (hh : SameHost s t) :
    respond ok code data t = respond ok code data s := by
  obtain ⟨h1, h2, h3, h4, h5⟩ := h
  obtain ⟨h6, h7⟩ := hh
  cases s; cases t; simp_all [respond]

/-- What a success leaves before its response: the same state, IDCHECK's IDENTIFIED, or CFGLOAD's latched configuration. -/
def Written (i : Instr) (s u : State) : Prop :=
  u = s ∨ (i = .idcheck 0x33 ∧ u = { s with sess := .identified }) ∨
  ∃ odr r c fs m, i = .cfgload odr r c ∧ fsCodeRom r = some fs ∧ modeOfCode c = some m ∧
    u = { s with cfgOdr := odr, cfgFs := fs, cfgMode := m, sess := .configured }

/-- The two things a command's own rule can do: succeed, or raise one of the three errors a rule has. -/
theorem ruleOf_cases (i : Instr) (s : State) :
    (∃ d u, ruleOf i s = succeed d u ∧ Written i s u) ∨
    (∃ e ∈ [Code.illegalCmd, .configError, .identityMismatch], ruleOf i s = raise e s ∧ i.mnemonic ≠ .status) := by
  cases i with
  | regaddr name =>
    rcases regaddrRule_cases name s with ⟨a, _, h⟩ | ⟨_, h⟩
    · exact .inl ⟨_, s, h, .inl rfl⟩
    · exact .inr ⟨_, by simp, h, by simp [Instr.mnemonic]⟩
  | cfgload odr r c =>
    rcases cfgloadRule_cases odr r c s with ⟨fs, m, h1, h2, h⟩ | ⟨_, h⟩
    · exact .inl ⟨_, _, h, .inr (.inr ⟨_, _, _, _, _, rfl, h1, h2, rfl⟩)⟩
    · exact .inr ⟨_, by simp, h, by simp [Instr.mnemonic]⟩
  | idcheck v =>
    rcases idcheckRule_cases v s with ⟨rfl, h⟩ | ⟨_, h⟩
    · exact .inl ⟨_, _, h, .inr (.inl ⟨rfl, rfl⟩)⟩
    · exact .inr ⟨_, by simp, h, by simp [Instr.mnemonic]⟩
  | _ => exact .inl ⟨_, s, rfl, .inl rfl⟩

/-- Everything a command can do: be refused in FAILED, raise, or succeed where the gate lets it run. -/
theorem exec_cases (i : Instr) (s : State) :
    (s.sess = .failed ∧ i.mnemonic ≠ .status ∧ exec i s = .next (refuse s)) ∨
    (s.sess ≠ .failed ∧ i.mnemonic ≠ .status ∧
      ∃ e ∈ [Code.illegalCmd, .configError, .identityMismatch, .sequenceError], exec i s = .next (raise e s)) ∨
    (gate i.mnemonic s.sess = .run ∧ ∃ d u, exec i s = .next (succeed d u) ∧ Written i s u) := by
  rw [exec_eq_gated]
  rcases gated_cases i.mnemonic (ruleOf i) s with ⟨h1, h2⟩ | ⟨h1, h2⟩ | ⟨h1, h2⟩ <;> rw [h2]
  · rcases ruleOf_cases i s with ⟨d, u, h, hu⟩ | ⟨e, he, h, hm⟩
    · exact .inr (.inr ⟨h1, d, u, by rw [h], hu⟩)
    · refine .inr (.inl ⟨fun hf => ?_, hm, e, ?_, by rw [h]⟩)
      · rw [(gate_refused_iff _ _).2 ⟨hf, hm⟩] at h1; cases h1
      · simp only [List.mem_cons, List.not_mem_nil, or_false] at he ⊢; tauto
  · refine .inr (.inl ⟨fun hf => ?_, fun hm => ?_, .sequenceError, by simp, rfl⟩)
    · rw [hf] at h1; revert h1; cases i.mnemonic <;> simp [gate]
    · rw [hm] at h1; simp [gate] at h1
  · obtain ⟨hf, hm⟩ := (gate_refused_iff _ _).1 h1
    exact .inl ⟨hf, hm, rfl⟩

/-- A command does not see the handshake's in-flight record, and its response ends it. -/
theorem runCommand_inFlight (w : Word) (s : State) (x : Option InFlight) :
    runCommand w { s with inFlight := x } = runCommand w s := by
  have hrule : ∀ i, ruleOf i { s with inFlight := x } = ruleOf i s := by
    intro i
    cases i with
    | regaddr name => simp only [ruleOf, regaddrRule]; split <;> rfl
    | cfgload odr r c => simp only [ruleOf, cfgloadRule]; split <;> [rfl; (split <;> rfl)]
    | idcheck v => simp only [ruleOf, idcheckRule]; split <;> rfl
    | _ => rfl
  unfold runCommand
  split
  · rfl
  · split
    · rfl
    · rw [exec_eq_gated, exec_eq_gated, gated, gated, hrule]
      rfl

end Sys2Proof.Machine
end

