-- ==== Sys2Proof/Laws/PerInstr.lean ====
section
/-! SUPPORT. Statements made one constructor at a time. -/

namespace Sys2Proof.Laws.EncodeRow

/-- The word of a command meets its row's `match` under its `mask` (30_encoding.md R61, R63). -/
def Statement (i : Instr) : Prop := encode i &&& i.mnemonic.row.mask = i.mnemonic.row.pattern

/-- A row's pattern survives its mask, and operand bits under the mask are 0. -/
theorem of_operandBits {i : Instr} (h : operandBits i &&& i.mnemonic.row.mask = 0) : Statement i := by
  have hp : ∀ m : Mnemonic, m.row.pattern &&& m.row.mask = m.row.pattern := by intro m; cases m <;> decide
  unfold Statement encode
  rw [BitVec.and_comm, BitVec.and_or_distrib_left, BitVec.and_comm, hp, BitVec.and_comm, h]
  exact BitVec.or_zero

/-- A field of `n` bits has no bit at or above `n`. -/
theorem setWidth_and_high {n : Nat} (v : BitVec n) {mask : Word} (h : ∀ i < n, mask.getLsbD i = false) :
    v.setWidth 32 &&& mask = 0 := by
  apply BitVec.eq_of_getLsbD_eq
  intro i hi
  by_cases hn : i < n
  · simp [h i hn]
  · simp [BitVec.getLsbD_of_ge v i (by omega)]

theorem regaddr (name : BitVec 4) : Statement (.regaddr name) :=
  of_operandBits (setWidth_and_high (mask := Mnemonic.regaddr.row.mask) name (by decide))

theorem decode (raw : Raw) : Statement (.decode raw) :=
  of_operandBits (setWidth_and_high (mask := Mnemonic.decode.row.mask) raw (by decide))

theorem assemble (lo hi : Byte) : Statement (.assemble lo hi) := by
  refine of_operandBits ?_
  apply BitVec.eq_of_getLsbD_eq
  intro i hi
  simp only [operandBits, Instr.mnemonic, Mnemonic.row]
  interval_cases i <;> simp

theorem tempconv (raw : Raw) : Statement (.tempconv raw) :=
  of_operandBits (setWidth_and_high (mask := Mnemonic.tempconv.row.mask) raw (by decide))

theorem accconv (raw : Raw) : Statement (.accconv raw) :=
  of_operandBits (setWidth_and_high (mask := Mnemonic.accconv.row.mask) raw (by decide))

theorem cfgload (odr : BitVec 4) (rangeG : Byte) (mode : BitVec 2) : Statement (.cfgload odr rangeG mode) := by
  refine of_operandBits ?_
  apply BitVec.eq_of_getLsbD_eq
  intro i hi
  simp only [operandBits, Instr.mnemonic, Mnemonic.row]
  interval_cases i <;> simp

theorem buildcr1 : Statement .buildcr1 := rfl

theorem buildcr4 : Statement .buildcr4 := rfl

theorem idcheck (v : Byte) : Statement (.idcheck v) :=
  of_operandBits (setWidth_and_high (mask := Mnemonic.idcheck.row.mask) v (by decide))

theorem status : Statement .status := rfl

end Sys2Proof.Laws.EncodeRow
end

