-- ==== Sys2Proof/Tests/Slice0.lean ====
section
/-! SUPPORT. The model's own tests. Expected values are those of spec/95_test_vectors.md and the worked examples of the
rules, never the model's own answers; then one witness for each statement that has hypotheses. -/

namespace Sys2Proof.Tests

open Sys2Proof Sys2Proof.Machine Sys2Proof.Statements

/-! ### Helpers: the small states of 95_test_vectors.md -/

/-- `{I}` -/
def stI : State := { State.reset with sess := .identified }

/-- `Cfg(r, m, o)` as its fields. -/
def stC (odr : BitVec 4) (fs : BitVec 2) (m : Mode) : State :=
  { State.reset with sess := .configured, cfgOdr := odr, cfgFs := fs, cfgMode := m }

/-- `{F, err 3}` -/
def stF : State := { State.reset with sess := .failed, err := .identityMismatch }

/-- The state after an outcome. -/
def nextOf : Host.Outcome State Fault Refusal → Option State
  | .next s => some s
  | .fault _ => none
  | .refused _ => none

/-- The response (ok, code, data) after a word. -/
def rsp (w : Word) (s : State) : Option (Bool × BitVec 3 × Word) :=
  ((nextOf (runCommand w s)).bind (·.rsp)).map (fun r => (r.ok, r.code.bits, r.data))

/-- The five fields {sess, odr, fs, mode, err} after a word. -/
def fields (w : Word) (s : State) : Option (Sess × BitVec 4 × BitVec 2 × BitVec 2 × BitVec 3) :=
  (nextOf (runCommand w s)).map (fun t => (t.sess, t.cfgOdr, t.cfgFs, modeBits t.cfgMode, t.err.bits))

/-! ### Decoding: words of R63, R64, R68 and the vectors -/

theorem test_decode_regaddr : decode 0x1000000B = .instr (.regaddr 11) := by decide
theorem test_decode_decode : decode 0x20008001 = .instr (.decode 0x8001) := by decide
theorem test_decode_assemble : decode 0x3000FF01 = .instr (.assemble 0x01 0xFF) := by decide
theorem test_decode_tempconv : decode 0x40001900 = .instr (.tempconv 0x1900) := by decide
theorem test_decode_accconv : decode 0x50007FC0 = .instr (.accconv 0x7FC0) := by decide
theorem test_decode_cfgload : decode 0x60001109 = .instr (.cfgload 9 16 1) := by decide
theorem test_decode_buildcr1 : decode 0x70000000 = .instr .buildcr1 := by decide
theorem test_decode_buildcr4 : decode 0x80000000 = .instr .buildcr4 := by decide
theorem test_decode_idcheck : decode 0x90000032 = .instr (.idcheck 0x32) := by decide
theorem test_decode_status : decode 0xA0000000 = .instr .status := by decide
theorem test_decode_zero : decode 0x00000000 = .illegal (.reservedOpcode 0) := by decide
theorem test_decode_opcodeB : decode 0xB0000000 = .illegal (.reservedOpcode 0xB) := by decide
theorem test_decode_reserved : decode 0x60004025 = .illegal (.reservedBits .cfgload) := by decide
theorem test_encode_cfgload : encode (.cfgload 7 8 2) = 0x60002087 := by decide
theorem test_table_word : decodeTableWord 32 0x3000FFC0 = some (.assemble 0xC0 0xFF) := by decide

/-! ### Well-formedness: an ill-formed line for each check, which the check refuses (R68) -/

theorem test_wf_regaddr : (AsmLine.regaddr (.number 16)).wellFormed = false := by decide
theorem test_wf_decode : (AsmLine.decode 65536).wellFormed = false := by decide
theorem test_wf_assemble_lo : (AsmLine.assemble 256 0).wellFormed = false := by decide
theorem test_wf_assemble_hi : (AsmLine.assemble 0 256).wellFormed = false := by decide
theorem test_wf_tempconv : (AsmLine.tempconv 65536).wellFormed = false := by decide
theorem test_wf_accconv : (AsmLine.accconv 65536).wellFormed = false := by decide
theorem test_wf_cfgload_odr : (AsmLine.cfgload 16 2 (.number 0)).wellFormed = false := by decide
theorem test_wf_cfgload_range : (AsmLine.cfgload 5 256 (.number 0)).wellFormed = false := by decide
theorem test_wf_cfgload_mode : (AsmLine.cfgload 5 2 (.number 4)).wellFormed = false := by decide
theorem test_wf_idcheck : (AsmLine.idcheck 256).wellFormed = false := by decide
theorem test_asm_refuses : assembleLine (.idcheck 256) = none := by decide

/-! ### Assembly text (95_test_vectors.md's commands and words) -/

theorem test_text_name : assembleText "REGADDR OUT_X_L" = some 0x10000006 := by decide
theorem test_text_mode : assembleText "CFGLOAD 7, 8, HIGHRES" = some 0x60002087 := by decide
theorem test_text_hex : assembleText "ASSEMBLE 0xC0, 0xFF" = some 0x3000FFC0 := by decide
theorem test_text_binary : assembleText "DECODE 0b101" = some 0x20000005 := by decide
theorem test_text_none : assembleText "STATUS" = some 0xA0000000 := by decide
theorem test_text_operand : assembleText "STATUS 1" = none := by decide

/-! ### The commands (95_test_vectors.md part 2) -/

theorem test_regaddr : rsp 0x1000000B State.reset = some (true, 0, 0x2D) := by decide
theorem test_regaddr_noName : rsp 0x1000000C State.reset = some (false, 1, 0) := by decide
theorem test_decode_neg : rsp 0x20008000 State.reset = some (true, 0, 0xFFFF8000) := by decide
theorem test_decode_max : rsp 0x20007FFF State.reset = some (true, 0, 0x00007FFF) := by decide
theorem test_assemble_order : rsp 0x30000100 State.reset = some (true, 0, 0x00000100) := by decide
theorem test_assemble_unsigned : rsp 0x3000FFC0 State.reset = some (true, 0, 0x0000FFC0) := by decide
theorem test_tempconv_min : rsp 0x40008000 State.reset = some (true, 0, 0xFFFF9900) := by decide
theorem test_tempconv_26 : rsp 0x40000100 (stC 5 0 .normal) = some (true, 0, 0x00001A00) := by decide
theorem test_accconv_lsb : rsp 0x50000040 (stC 5 0 .normal) = some (true, 0, 0x00018700) := by decide
theorem test_accconv_min : rsp 0x50008000 (stC 5 0 .normal) = some (true, 0, 0xFCF20000) := by decide
theorem test_cfgload : fields 0x60002087 stI = some (.configured, 7, 0b10, 0b10, 0) := by decide
theorem test_cfgload_badRange : fields 0x60000205 stI = some (.failed, 0, 0, 0, 2) := by decide
theorem test_buildcr1 : rsp 0x70000000 (stC 0xF 0 .lowPower) = some (true, 0, 0xFF) := by decide
theorem test_buildcr1_highRes : rsp 0x70000000 (stC 7 2 .highResolution) = some (true, 0, 0x77) := by decide
theorem test_buildcr4 : rsp 0x80000000 (stC 7 2 .highResolution) = some (true, 0, 0xA8) := by decide
theorem test_buildcr4_lowPower : rsp 0x80000000 (stC 9 3 .lowPower) = some (true, 0, 0xB0) := by decide
theorem test_idcheck : fields 0x90000033 State.reset = some (.identified, 0, 0, 0, 0) := by decide
theorem test_idcheck_mismatch : fields 0x90000032 State.reset = some (.failed, 0, 0, 0, 3) := by decide
theorem test_status_configured : rsp 0xA0000000 (stC 7 2 .highResolution) = some (true, 0, 0xA720) := by decide
theorem test_status_failed : rsp 0xA0000000 stF = some (true, 0, 0x33) := by decide

/-! ### Errors and priority (95_test_vectors.md) -/

theorem test_decode_before_gate : rsp 0x50010000 State.reset = some (false, 1, 0) := by decide
theorem test_gate_before_rule : fields 0x60003035 (stC 5 0 .normal) = some (.failed, 5, 0, 0, 4) := by decide
theorem test_failed_refuses_illegal : rsp 0x00000000 stF = some (false, 5, 0) := by decide
theorem test_failed_refuses_status_spelling : rsp 0xA0000001 stF = some (false, 5, 0) := by decide

/-! ### Steps and edges -/

theorem test_step_runs_fetched :
    (nextOf (step (State.reset.withFetchWord 32 0x90000033))).map (fun t => (t.sess, t.index, t.host)) =
      some (.identified, 1, []) := by decide
theorem test_step_reset : (nextOf (step { stF with host := [.reset, .command 0] })).map (fun t => (t.sess, t.host)) =
    some (.unchecked, [.command 0]) := by decide
theorem test_edge_drops_in_flight :
    (nextOf (clockEdge ⟨false, true, 0⟩ { stI with inFlight := some ⟨0, 3⟩ })).map
      (fun t => (t.sess, t.inFlight, t.cmdReady, t.rsp)) = some (.unchecked, none, false, none) := by decide

/-! ### The reference fill G1 (93_implementation_defined.md) as an argument -/

/-- G1's table, from general knowledge: used here as an argument only. -/
def gkFill (fs : BitVec 2) (m : Mode) : Nat :=
  match m with
  | .lowPower => [1563, 3126, 6252, 18758].getD fs.toNat 0
  | .normal => [391, 782, 1563, 4690].getD fs.toNat 0
  | .highResolution => [98, 195, 390, 1172].getD fs.toNat 0

theorem test_gk_highRes : wrap32 (accFx gkFill 0b10 .highResolution 0x8000) = 0xF3D00000 := by decide
theorem test_gk_lowPower : wrap32 (accFx gkFill 0b11 .lowPower 0x7FFF) = 0x24A2B6BA := by decide

/-! ### Witnesses: for each statement with hypotheses, values that meet them, clause by clause -/

theorem witness_EncodeOfDecode : decode 0x60002087 = .instr (.cfgload 7 8 2) := by decide

theorem witness_IllegalEncodingsRaise_opcodes :
    State.reset.sess ≠ .failed ∧ opcodeOf 0x00000000 = 0 ∧ 0xB ≤ (opcodeOf 0xB0000000).toNat ∧
    0xB ≤ (opcodeOf 0xF0000000).toNat := by decide
theorem witness_IllegalEncodingsRaise_bits :
    (opcodeOf 0x10000010 = 0x1 ∧ (0x10000010 : Word) &&& 0x0FFFFFF0 ≠ 0) ∧
    (opcodeOf 0x50010000 ∈ [(0x2 : BitVec 4), 0x3, 0x4, 0x5] ∧ (0x50010000 : Word) &&& 0x0FFF0000 ≠ 0) ∧
    (opcodeOf 0x60004025 = 0x6 ∧ (0x60004025 : Word) &&& 0x0FFFC000 ≠ 0) ∧
    (opcodeOf 0xA0000010 ∈ [(0x7 : BitVec 4), 0x8, 0xA] ∧ (0xA0000010 : Word) &&& 0x0FFFFFFF ≠ 0) ∧
    (opcodeOf 0x90000133 = 0x9 ∧ (0x90000133 : Word) &&& 0x0FFFFF00 ≠ 0) := by decide
theorem witness_IllegalEncodingsRaise_name :
    decode 0x1000000C = .instr (.regaddr 12) ∧ 12 ≤ (12 : BitVec 4).toNat := by decide

theorem witness_AssembledLineDecodes :
    (AsmLine.cfgload 15 255 (.number 3)).wellFormed = true ∧ (AsmLine.decode 65536).wellFormed = false ∧
    (RegName.outZH, 11) ∈ [(RegName.outZL, 10), (RegName.outZH, 11)] ∧
    (Mode.highResolution, 2) ∈ [(Mode.normal, 0), (Mode.lowPower, 1), (Mode.highResolution, 2)] ∧ 15 < 16 ∧ 255 < 256 := by
  decide

theorem witness_StepRunsTheDecodedCommand :
    ({ State.reset with host := [.command 0xA0000000] } : State).inFlight = none ∧ decode 0xA0000000 = .instr .status := by
  decide

theorem witness_OrderOfChecks_refusal : stF.sess = .failed ∧ (0 : Word) ≠ 0xA0000000 := by decide
theorem witness_OrderOfChecks_illegal :
    ¬(State.reset.sess = .failed ∧ (0x50010000 : Word) ≠ 0xA0000000) ∧
    decode 0x50010000 = .illegal (.reservedBits .accconv) := by decide
theorem witness_OrderOfChecks_gate :
    (stC 5 0 .normal).sess ≠ .failed ∧ decode 0x60003035 = .instr (.cfgload 5 3 3) ∧
    (stC 5 0 .normal).sess ∉ runsIn (Instr.cfgload 5 3 3).mnemonic := by decide
theorem witness_OrderOfChecks_rules :
    (decode 0x1000000C = .instr (.regaddr 12) ∧ State.reset.sess ∈ runsIn .regaddr) ∧
    (decode 0x60003005 = .instr (.cfgload 5 0 3) ∧ stI.sess ∈ runsIn .cfgload ∧ (0 : Byte) ∉ [(2 : Byte), 4, 8, 16]) ∧
    (decode 0x90000032 = .instr (.idcheck 0x32) ∧ State.reset.sess ∈ runsIn .idcheck ∧ (0x32 : Byte) ≠ 0x33) := by decide

theorem witness_FailedRefusesAllButStatus : stF.sess = .failed ∧ (0xA0000001 : Word) ≠ 0xA0000000 := by decide

theorem witness_RaiseIsPrecise :
    runCommand 0 State.reset = .next (raised .illegalCmd State.reset) ∧
    (raised .illegalCmd State.reset).rsp = some ⟨false, .illegalCmd, 0⟩ ∧ Code.illegalCmd ≠ .sessionFailed :=
  ⟨rfl, rfl, by decide⟩

theorem witness_SequenceGate :
    (State.reset.sess ≠ .failed ∧ State.reset.sess ∉ runsIn (Instr.accconv 0x0040).mnemonic) ∧
    (stI.sess ∈ runsIn (Instr.cfgload 5 2 0).mnemonic) ∧
    (stF.sess = .failed ∧ (Instr.idcheck 0x33).mnemonic ≠ .status ∧ Instr.status.mnemonic = .status) := by decide

theorem witness_RegaddrCommand :
    State.reset.sess ≠ .failed ∧ stF.sess = .failed ∧ 12 ≤ (12 : BitVec 4).toNat ∧
    ((11 : BitVec 4), (0x2D : Byte)) ∈ [((0 : BitVec 4), (0x0F : Byte)), (1, 0x1F), (2, 0x20), (3, 0x23), (4, 0x0C),
      (5, 0x0D), (6, 0x28), (7, 0x29), (8, 0x2A), (9, 0x2B), (10, 0x2C), (11, 0x2D)] := by decide

theorem witness_ReservedBitsRaise :
    (opcodeOf 0x10000010 = 0x1 ∧ (0x10000010 : Word) &&& 0x0FFFFFF0 ≠ 0) ∧
    (opcodeOf 0x20010000 = 0x2 ∧ (0x20010000 : Word) &&& 0x0FFF0000 ≠ 0) ∧
    (opcodeOf 0x30010000 = 0x3 ∧ (0x30010000 : Word) &&& 0x0FFF0000 ≠ 0) ∧
    (opcodeOf 0x48000000 = 0x4 ∧ (0x48000000 : Word) &&& 0x0FFF0000 ≠ 0) ∧
    (opcodeOf 0x50010000 = 0x5 ∧ (0x50010000 : Word) &&& 0x0FFF0000 ≠ 0) ∧
    (opcodeOf 0x60004025 = 0x6 ∧ (0x60004025 : Word) &&& 0x0FFFC000 ≠ 0) ∧
    (opcodeOf 0x70000001 = 0x7 ∧ (0x70000001 : Word) &&& 0x0FFFFFFF ≠ 0) ∧
    (opcodeOf 0x88000000 = 0x8 ∧ (0x88000000 : Word) &&& 0x0FFFFFFF ≠ 0) ∧
    (opcodeOf 0x90000133 = 0x9 ∧ (0x90000133 : Word) &&& 0x0FFFFF00 ≠ 0) ∧
    (opcodeOf 0xA0000001 = 0xA ∧ (0xA0000001 : Word) &&& 0x0FFFFFFF ≠ 0) := by
  decide

theorem witness_ConversionCommands : State.reset.sess ≠ .failed ∧ stF.sess = .failed := by decide

theorem witness_AccconvCommand :
    ((stC 5 2 .highResolution).cfgMode, (16 : Int)) ∈
      [(Mode.normal, (4 : Int)), (Mode.lowPower, 1), (Mode.highResolution, 16)] ∧
    (stC 5 2 .highResolution).sess = .configured ∧ State.reset.sess = .unchecked ∧ stF.sess = .failed := by decide

theorem witness_CfgloadCommand :
    stI.sess = .identified ∧
    ((16 : Byte), (0b11 : BitVec 2)) ∈ [((2 : Byte), (0b00 : BitVec 2)), (4, 0b01), (8, 0b10), (16, 0b11)] ∧
    ((0b10 : BitVec 2), Mode.highResolution) ∈
      [((0b00 : BitVec 2), Mode.normal), (0b01, .lowPower), (0b10, .highResolution)] ∧
    (17 : Byte) ∉ [(2 : Byte), 4, 8, 16] ∧ State.reset.sess = .unchecked ∧ stF.sess = .failed := by decide

theorem witness_BuildCommands :
    ((stC 5 2 .lowPower).cfgMode, 1) ∈ [(Mode.normal, 0), (Mode.lowPower, 1), (Mode.highResolution, 0)] ∧
    ((stC 5 2 .lowPower).cfgMode, 0) ∈ [(Mode.normal, 0), (Mode.lowPower, 0), (Mode.highResolution, 1)] ∧
    (stC 5 2 .lowPower).sess = .configured ∧ stI.sess = .identified ∧ stF.sess = .failed := by decide

theorem witness_IdcheckCommand :
    State.reset.sess = .unchecked ∧ (0x34 : Byte) ≠ 0x33 ∧ stI.sess = .identified ∧ stF.sess = .failed := by decide

theorem witness_StatusCommand :
    (stF.sess, 3) ∈ [(Sess.unchecked, 0), (Sess.identified, 1), (Sess.configured, 2), (Sess.failed, 3)] ∧
    (stF.err, 3) ∈ [(Code.none, 0), (Code.illegalCmd, 1), (Code.configError, 2), (Code.identityMismatch, 3),
      (Code.sequenceError, 4), (Code.sessionFailed, 5)] ∧
    (stF.cfgMode, 0) ∈ [(Mode.normal, 0), (Mode.lowPower, 1), (Mode.highResolution, 2)] := by decide

theorem witness_StepResets : ({ stF with host := [.reset] } : State).host = .reset :: [] := rfl

theorem witness_StepWaitsForACommand : State.reset.host = [] ∧ State.reset.inFlight = none := by decide

/-- A configured state with its last response meets the invariant. -/
theorem blockInv_configured : BlockInv (success 0 (stC 5 2 .normal)) where
  session := ⟨by simp [success, stC, State.reset], by simp [success, stC, State.reset], by simp [success, stC]⟩
  ports := ⟨by simp [success], by simp [success], by simp [success, Response.WellFormed]⟩

theorem witness_StepKeepsInvariant :
    BlockInv (success 0 (stC 5 2 .normal)) ∧ ∃ t, step (success 0 (stC 5 2 .normal)) = .next t :=
  ⟨blockInv_configured, _, rfl⟩

theorem witness_ClockEdgeKeepsInvariant :
    BlockInv (success 0 (stC 5 2 .normal)) ∧ ∃ t, clockEdge ⟨true, true, 0⟩ (success 0 (stC 5 2 .normal)) = .next t :=
  ⟨blockInv_configured, _, rfl⟩

theorem witness_ConfigWrittenOnlyByCfgload :
    ∃ t, runCommand 0x60002087 stI = .next t ∧ ¬SameConfig stI t :=
  ⟨_, rfl, fun h => absurd h.1 (by decide)⟩

theorem witness_ConfigReadOnlyWhenConfigured :
    (Instr.cfgload 7 8 2).mnemonic ≠ .status ∧ stI.sess ≠ .configured ∧
    ∃ t, exec (.cfgload 7 8 2) stI = .next t ∧ t.sess = .configured :=
  ⟨by decide, by decide, _, rfl, rfl⟩

theorem witness_OnlyResetLeavesFailed :
    ∃ t, ({ stF with host := [.command 0] } : State).sess = .failed ∧
      (∀ rest, ({ stF with host := [.command 0] } : State).host ≠ .reset :: rest) ∧
      step { stF with host := [.command 0] } = .next t :=
  ⟨_, rfl, by simp, rfl⟩

theorem witness_SessionMovesForward :
    ∃ t, runCommand 0x90000033 State.reset = .next t ∧ t.sess ≠ State.reset.sess := ⟨_, rfl, by decide⟩

theorem witness_AccessByCommand :
    (∃ t, exec (.idcheck 0x33) State.reset = .next t ∧ Succeeded t) ∧
    (∃ t, exec (.idcheck 0x32) State.reset = .next t ∧ ¬Succeeded t) :=
  ⟨⟨_, rfl, _, rfl⟩, ⟨_, rfl, fun ⟨d, h⟩ => by revert h; simp [gated, gate, idcheckRule, isKnownDevice, whoAmIValue, State.reset]⟩⟩

theorem witness_ConversionsRepeat :
    IsConversion (.accconv 0x0040) ∧ ∃ t, exec (.accconv 0x0040) (stC 5 0 .normal) = .next t ∧ Succeeded t :=
  ⟨.inr (.inr (.inr rfl)), _, rfl, _, rfl⟩

theorem witness_ConversionsDependOnlyOnConfig :
    ∃ s' t', exec (.accconv 0x0040) (stC 5 0 .normal) = .next s' ∧ exec (.accconv 0x0040) (stC 9 0 .normal) = .next t' ∧
      Succeeded s' ∧ Succeeded t' ∧ (stC 5 0 .normal).cfgFs = (stC 9 0 .normal).cfgFs :=
  ⟨_, _, rfl, rfl, ⟨_, rfl⟩, ⟨_, rfl⟩, rfl⟩

theorem witness_StatusShowsTheWholeState :
    ∃ s' t', exec .status stI = .next s' ∧ exec .status { stI with index := 7 } = .next t' ∧ s'.rsp = t'.rsp :=
  ⟨_, _, rfl, rfl, rfl⟩

theorem witness_GeneralDecodeSigned : 0 < 1 ∧ 1 < 2 ^ 1 ∧ 2 ^ 1 ≤ 2 := by decide

theorem witness_TemperatureIsExact : State.reset.sess ≠ .failed := by decide

theorem witness_AccelerationIsExact : ScaleWellFormed gkFill ∧ (stC 5 3 .lowPower).sess = .configured := by
  refine ⟨⟨rfl, fun fs m => ?_⟩, rfl⟩
  revert fs
  cases m <;> decide

theorem witness_AccelerationOfTheSourceVector :
    (stC 5 0 .normal).sess = .configured ∧ (stC 5 0 .normal).cfgFs = 0b00 ∧ (stC 5 0 .normal).cfgMode = .normal := by
  decide

theorem witness_NonzeroSampleConvertsToNonzero : (stC 5 3 .normal).sess = .configured ∧ (0xFFFF : Raw) ≠ 0 := by decide

theorem witness_EveryWellFormedScaleTableIsAllowed : ScaleWellFormed gkFill := witness_AccelerationIsExact.1

theorem witness_LowPowerAndHighResolutionExclude : (stC 5 3 .highResolution).sess = .configured := rfl

theorem witness_ResetEdges : (⟨false, true, 0⟩ : Pins).rstN = false ∧ (⟨true, true, 0⟩ : Pins).rstN = true := by decide

theorem witness_AcceptanceEdge :
    (⟨true, true, 0⟩ : Pins).rstN = true ∧ State.reset.cmdReady = true ∧ State.reset.inFlight = none ∧
    (⟨true, true, 0⟩ : Pins).cmdValid = true ∧ (⟨true, false, 0⟩ : Pins).cmdValid = false := by decide

theorem witness_HandshakeRefinesStep :
    State.reset.inFlight = none ∧ State.reset.cmdReady = true ∧
    (∀ p ∈ List.replicate Config.cmdLatency (⟨true, false, 0⟩ : Pins), p.rstN = true) ∧
    (List.replicate Config.cmdLatency (⟨true, false, 0⟩ : Pins)).length = Config.cmdLatency ∧
    ([] : List Pins).length < Config.cmdLatency := by
  refine ⟨rfl, rfl, fun p hp => ?_, List.length_replicate .., Nat.succ_pos _⟩
  rw [List.eq_of_mem_replicate hp]

/-- Also its idle edges: none presented, no reset. -/
theorem witness_OutputPorts :
    State.reset.inFlight = none ∧ State.reset.cmdReady = true ∧
    (List.replicate Config.cmdLatency (⟨true, false, 0⟩ : Pins)).length = Config.cmdLatency ∧
    ([] : List Pins).length < Config.cmdLatency ∧ (⟨false, true, 0⟩ : Pins).rstN = false ∧
    ∀ p ∈ List.replicate Config.cmdLatency (⟨true, false, 0⟩ : Pins), p.rstN = true ∧ p.cmdValid = false := by
  refine ⟨rfl, rfl, List.length_replicate .., Nat.succ_pos _, rfl, fun p hp => ?_⟩
  rw [List.eq_of_mem_replicate hp]
  exact ⟨rfl, rfl⟩

theorem witness_LatencyDoesNotMatter :
    (∀ p ∈ [(⟨true, false, 0⟩ : Pins)], p.rstN = true) ∧ [(⟨true, false, 0⟩ : Pins)].length = 0 + 1 ∧
    [(⟨true, true, 1⟩ : Pins), ⟨true, false, 0⟩].length = 1 + 1 := by decide

/-- A host that holds both images of a configured block. -/
def hostC : HostView :=
  { HostView.start (success 0 (stC 5 2 .normal)) false with cr1 := some 0x57, cr4 := some 0xA0 }

theorem witness_HostActionKeepsInvariant (p : HostParams) : HostInv hostC ∧ ∃ u, hostC.act p .settle = some u := by
  refine ⟨⟨blockInv_configured, fun b hb => ?_, fun b hb => ?_⟩, _, rfl⟩
  · cases hb; exact ⟨.inl rfl, by decide⟩
  · cases hb; exact ⟨.inl rfl, by decide⟩

/-- The three writes a host makes, each after a run from reset within the duties (ODR 5, 8 g, normal). -/
theorem witness_HostWritesTheLatchedImages :
    ((HostView.run ⟨true, 0xC0, false⟩ ((bootActions ⟨true, 0xC0, false⟩ 0x33 5 8 0 0x57 0xA0).take 6)
        (.start State.reset false)).bind (fun v => v.act ⟨true, 0xC0, false⟩ (.write 0x20 0x57))).isSome = true ∧
    ((HostView.run ⟨false, 0xC0, false⟩ ((bootActions ⟨false, 0xC0, false⟩ 0x33 5 8 0 0x57 0xA0).take 6)
        (.start State.reset false)).bind (fun v => v.act ⟨false, 0xC0, false⟩ (.write 0x23 0xA0))).isSome = true ∧
    ((HostView.run ⟨true, 0xC0, false⟩ ((bootActions ⟨true, 0xC0, false⟩ 0x33 5 8 0 0x57 0xA0).take 3)
        (.start State.reset false)).bind (fun v => v.act ⟨true, 0xC0, false⟩ (.write 0x1F 0xC0))).isSome = true := by
  decide

theorem witness_BrokenDutiesStopTheRun :
    ({ hostC with unsettled := true } : HostView).unsettled = true ∧
    ({ hostC with transferFailed := true } : HostView).transferFailed = true ∧ hostC.lowOf .x = none ∧
    ({ hostC with lows := [(.x, 0x40)] } : HostView).lowOf .x ≠ none ∧
    (⟨true, 0, false⟩ : HostParams).blockReadsShownSafe = false ∧ (HostView.start stF false).block.sess = .failed ∧
    (0x2C : Byte) ∈ [(0x0C : Byte), 0x28, 0x2A, 0x2C] := by decide

theorem witness_BootSequenceConfigures :
    ((16 : Byte), (0b11 : BitVec 2)) ∈ [((2 : Byte), (0b00 : BitVec 2)), (4, 0b01), (8, 0b10), (16, 0b11)] ∧
    ((0b01 : BitVec 2), Mode.lowPower) ∈ [((0b00 : BitVec 2), Mode.normal), (0b01, .lowPower), (0b10, .highResolution)] := by
  decide

theorem witness_UnknownDeviceStopsTheBoot : (0x32 : Byte) ≠ 0x33 := by decide

theorem witness_SamplingConverts :
    ((Channel.temperature, (0x0C : Byte), Instr.tempconv) : Channel × Byte × (Raw → Instr)) ∈
      [(Channel.temperature, (0x0C : Byte), Instr.tempconv), (.x, 0x28, .accconv), (.y, 0x2A, .accconv),
       (.z, 0x2C, .accconv)] ∧
    hostC.block.sess = .configured ∧ hostC.unsettled = false ∧ hostC.transferFailed = false ∧
    hostC.lowOf .temperature = none := ⟨by simp, by decide⟩

end Sys2Proof.Tests
end

section
/-! SUPPORT. Which words the decoder refuses and what a word then does outside FAILED (30_encoding.md R61, R65, R66). -/

namespace Sys2Proof

/-- The bits of `cmd[27:0]` that the command's layout reserves (R60, R61): those its row's `mask` fixes. -/
def Mnemonic.reservedBits (m : Mnemonic) : Word := m.row.mask &&& 0x0FFFFFFF

/-- The opcodes in use are 0x1 to 0xA (R63). -/
theorem row_op_range (m : Mnemonic) : m.row.op ≠ 0 ∧ m.row.op.toNat < 0xB := by cases m <;> decide

/-- A row's `match` lies in the opcode field. -/
theorem row_pattern_low (m : Mnemonic) : m.row.pattern &&& 0x0FFFFFFF = 0 := by cases m <;> decide

theorem row_op_injective : Function.Injective fun m : Mnemonic => m.row.op := by
  intro m n h
  exact Option.some_injective _
    (((ofOpcode_eq_some_iff n.row.op m).2 h.symm).symm.trans ((ofOpcode_eq_some_iff n.row.op n).2 rfl))

/-- R66 (a), (b). -/
theorem decode_ne_instr_of_reservedOpcode {w : Word} (h : opcodeOf w = 0 ∨ 0xB ≤ (opcodeOf w).toNat) (i : Instr) :
    decode w ≠ .instr i := by
  intro hd
  obtain ⟨m, hop, -, -⟩ := (decode_eq_instr_iff w i).1 hd
  obtain ⟨hzero, hlt⟩ := row_op_range m
  rw [hop] at h
  exact h.elim hzero (Nat.not_le.2 hlt)

/-- R61, R66 (c): a word under its row's `mask` that is the row's `match` has no reserved bit. -/
theorem decode_ne_instr_of_reservedBits {w : Word} {m : Mnemonic} (hop : opcodeOf w = m.row.op)
    (hbits : w &&& m.reservedBits ≠ 0) (i : Instr) : decode w ≠ .instr i := by
  intro hd
  obtain ⟨n, hn, hmatch, -⟩ := (decode_eq_instr_iff w i).1 hd
  obtain rfl : n = m := row_op_injective (hn.symm.trans hop)
  apply hbits
  calc w &&& n.reservedBits
      = (w &&& n.row.mask) &&& 0x0FFFFFFF := (BitVec.and_assoc ..).symm
    _ = n.row.pattern &&& 0x0FFFFFFF := by rw [hmatch]
    _ = 0 := row_pattern_low n

end Sys2Proof

namespace Sys2Proof.Machine

open Sys2Proof.Statements

theorem raise_eq_raised (e : Code) (s : State) : raise e s = raised e s := rfl

/-- Outside FAILED a word that is no command raises ILLEGAL_CMD (R163 step 2). -/
theorem runCommand_of_not_instr {w : Word} {s : State} (hs : s.sess ≠ .failed) (h : ∀ i, decode w ≠ .instr i) :
    runCommand w s = .next (raised .illegalCmd s) := by
  rcases runCommand_cases w s with ⟨hf, -, -⟩ | ⟨-, -, -, hrun⟩ | ⟨-, i, hd, -⟩
  · exact absurd hf hs
  · exact hrun
  · exact absurd hd (h i)

/-- Outside FAILED a word that decodes runs its command. -/
theorem runCommand_of_instr {w : Word} {s : State} {i : Instr} (hs : s.sess ≠ .failed) (h : decode w = .instr i) :
    runCommand w s = exec i s := by
  rcases runCommand_cases w s with ⟨hf, -, -⟩ | ⟨-, _, hd, -⟩ | ⟨-, j, hd, hrun⟩
  · exact absurd hf hs
  · cases h.symm.trans hd
  · cases h.symm.trans hd
    exact hrun

/-- A reserved bit of any layout raises ILLEGAL_CMD (R61). -/
theorem reservedBitsRaise (m : Mnemonic) (s : State) : ReservedBitsRaise m.row.op m.reservedBits s :=
  fun _ hop hbits hs => runCommand_of_not_instr hs (decode_ne_instr_of_reservedBits hop hbits)

theorem gate_regaddr {x : Sess} (h : x ≠ .failed) : gate .regaddr x = .run := by
  cases x with
  | failed => exact absurd rfl h
  | _ => rfl

/-- Outside FAILED, REGADDR of an index with no name raises ILLEGAL_CMD (40_register_map.md R90). -/
theorem exec_regaddr_of_noName {name : BitVec 4} {s : State} (hs : s.sess ≠ .failed) (hn : 12 ≤ name.toNat) :
    exec (.regaddr name) s = .next (raised .illegalCmd s) := by
  have hrule : regaddrRule name s = raise .illegalCmd s := by
    rcases regaddrRule_cases name s with ⟨a, hrom, -⟩ | ⟨-, h⟩
    · rw [List.getElem?_eq_none (show regMapRom.length ≤ name.toNat from hn)] at hrom
      cases hrom
    · exact h
  calc exec (.regaddr name) s
      = .next (gated .regaddr (regaddrRule name) s) := exec_eq_gated ..
    _ = .next (raised .illegalCmd s) := by rw [gated_run (gate_regaddr hs), hrule, raise_eq_raised]

/-- Settles O4: a reserved opcode or a reserved bit leaves no command to decode, so R163's second step raises; REGADDR's
own rule raises for NAME 12 to 15. -/
theorem illegalEncodingsRaise : Obligations.IllegalEncodingsRaise := by
  intro w s hs
  refine ⟨fun h => runCommand_of_not_instr hs (decode_ne_instr_of_reservedOpcode h), fun h => ?_,
    fun name hd hn => (runCommand_of_instr hs hd).trans (exec_regaddr_of_noName hs hn), fun i => runCommand_of_instr hs⟩
  have hraise : ∀ m : Mnemonic, opcodeOf w = m.row.op → w &&& m.reservedBits ≠ 0 →
      runCommand w s = .next (raised .illegalCmd s) :=
    fun m hop hbits => reservedBitsRaise m s w hop hbits hs
  simp only [List.mem_cons, List.not_mem_nil, or_false] at h
  rcases h with ⟨hop, hb⟩ | ⟨hop | hop | hop | hop, hb⟩ | ⟨hop, hb⟩ | ⟨hop | hop | hop, hb⟩ | ⟨hop, hb⟩
  · exact hraise .regaddr hop hb
  · exact hraise .decode hop hb
  · exact hraise .assemble hop hb
  · exact hraise .tempconv hop hb
  · exact hraise .accconv hop hb
  · exact hraise .cfgload hop hb
  · exact hraise .buildcr1 hop hb
  · exact hraise .buildcr4 hop hb
  · exact hraise .status hop hb
  · exact hraise .idcheck hop hb

end Sys2Proof.Machine
end

section
/-! SUPPORT. A word under its row's `mask` decodes to its fields (30_encoding.md R65), and how REGADDR ends in each
session state (40_register_map.md R90, 60_exceptions.md R161). -/

namespace Sys2Proof

/-- Every row's `mask` covers the opcode, so the row's `match` fixes it (R63). -/
theorem opcodeOf_of_match {w : Word} {m : Mnemonic} (h : w &&& m.row.mask = m.row.pattern) :
    opcodeOf w = m.row.op := by
  have hmask : opcodeOf m.row.mask = BitVec.allOnes 4 := by cases m <;> decide
  have hpattern : opcodeOf m.row.pattern = m.row.op := by cases m <;> decide
  calc opcodeOf w
      = opcodeOf w &&& opcodeOf m.row.mask := by rw [hmask, BitVec.and_allOnes]
    _ = opcodeOf (w &&& m.row.mask) := BitVec.extractLsb'_and.symm
    _ = m.row.op := by rw [h, hpattern]

theorem decode_of_match {w : Word} {m : Mnemonic} (h : w &&& m.row.mask = m.row.pattern) :
    decode w = .instr (fieldsOf m w) :=
  (decode_eq_instr_iff _ _).2 ⟨m, opcodeOf_of_match h, h, rfl⟩

/-- Operand bits clear of the row's `match` may be added to it as numbers. -/
theorem encode_eq_add {i : Instr} (h : i.mnemonic.row.pattern &&& operandBits i = 0) :
    encode i = i.mnemonic.row.pattern + operandBits i :=
  (BitVec.add_eq_or_of_and_eq_zero _ _ h).symm

theorem fieldsOf_encode_regaddr (name : BitVec 4) : fieldsOf .regaddr (encode (.regaddr name)) = .regaddr name := by
  have hfield : (encode (.regaddr name)).extractLsb' 0 4 = name := by
    simp [encode, operandBits, Instr.mnemonic, Mnemonic.row, BitVec.extractLsb'_or, BitVec.extractLsb'_setWidth_of_le]
  exact congrArg Instr.regaddr hfield

theorem encode_regaddr_eq_ofNat (name : BitVec 4) :
    encode (.regaddr name) = BitVec.ofNat 32 (0x10000000 + name.toNat) := by
  have hclear : Mnemonic.regaddr.row.pattern &&& operandBits (.regaddr name) = 0 := by
    rw [BitVec.and_comm]
    exact Laws.EncodeRow.setWidth_and_high name (by decide)
  rw [encode_eq_add (i := .regaddr name) hclear, BitVec.ofNat_add, BitVec.ofNat_toNat]
  rfl

/-- The word of REGADDR as a number (R64) decodes to it. -/
theorem decode_regaddr_word (name : BitVec 4) :
    decode (BitVec.ofNat 32 (0x10000000 + name.toNat)) = .instr (.regaddr name) := by
  rw [← encode_regaddr_eq_ofNat, decode_of_match (Laws.EncodeRow.regaddr name)]
  exact congrArg Decoded.instr (fieldsOf_encode_regaddr name)

end Sys2Proof

namespace Sys2Proof.Machine

open Sys2Proof.Statements

theorem succeed_eq_success (data : Word) (s : State) : succeed data s = success data s := rfl

theorem refuse_eq_refusedIn (s : State) : refuse s = refusedIn s := rfl

/-- R161: in FAILED every command but STATUS is refused. -/
theorem exec_of_failed {i : Instr} {s : State} (hs : s.sess = .failed) (hi : i.mnemonic ≠ .status) :
    exec i s = .next (refusedIn s) := by
  rw [exec_eq_gated, gated_refused ((gate_refused_iff _ _).2 ⟨hs, hi⟩), refuse_eq_refusedIn]

/-- Outside FAILED, REGADDR answers the REG_MAP ROM's entry for the name (10_state.md R26). -/
theorem exec_regaddr_of_romEntry {name : BitVec 4} {address : Byte} {s : State} (hs : s.sess ≠ .failed)
    (hrom : regMapRom[name.toNat]? = some address) :
    exec (.regaddr name) s = .next (success (BitVec.ofNat 32 address.toNat) s) := by
  have hrule : regaddrRule name s = succeed (zext32 address) s := by
    rcases regaddrRule_cases name s with ⟨a, ha, h⟩ | ⟨hn, -⟩
    · cases hrom.symm.trans ha
      exact h
    · rw [List.getElem?_eq_none (show regMapRom.length ≤ name.toNat from hn)] at hrom
      cases hrom
  calc exec (.regaddr name) s
      = .next (gated .regaddr (regaddrRule name) s) := exec_eq_gated ..
    _ = .next (succeed (zext32 address) s) := by rw [gated_run (gate_regaddr hs), hrule]
    _ = .next (success (BitVec.ofNat 32 address.toNat) s) := by
      rw [succeed_eq_success, zext32, BitVec.ofNat_toNat]

/-- The ROM holds the address the host uses for the register, at the register's index (R81, R82). -/
theorem regMapRom_regIndex (r : RegName) :
    regMapRom[(BitVec.ofNat 4 (regIndex r)).toNat]? = some (regAddress r) := by cases r <;> rfl

/-- Settles O12: the table's rows are the entries of the twelve registers, so outside FAILED the answer is the REG_MAP
ROM's entry, which is the host's address; NAME 12 to 15 has none, and in FAILED the gate refuses. -/
theorem regaddrCommand : Obligations.RegaddrCommand := by
  intro name s
  refine ⟨decode_regaddr_word name, fun hs address hmem => exec_regaddr_of_romEntry hs ?_,
    fun hs r => exec_regaddr_of_romEntry hs (regMapRom_regIndex r), fun hs hn => exec_regaddr_of_noName hs hn,
    fun hf => exec_of_failed hf (by simp [Instr.mnemonic]), reservedBitsRaise .regaddr s⟩
  have hentry : (name, address) ∈ regNames.map fun r => (BitVec.ofNat 4 (regIndex r), regAddress r) := hmem
  obtain ⟨r, -, hr⟩ := List.mem_map.1 hentry
  cases hr
  exact regMapRom_regIndex r

end Sys2Proof.Machine
end

section
/-! SUPPORT. The word of a command as a number, from a row's `match` and an operand field under it (30_encoding.md R61,
R64), and the words of the four conversion commands. -/

namespace Sys2Proof

theorem row_pattern_getLsbD_low (m : Mnemonic) : ∀ k < 28, m.row.pattern.getLsbD k = false := by cases m <;> decide

/-- A command whose operands are one low field of at most 28 bits. -/
theorem encode_eq_ofNat {i : Instr} {n : Nat} {v : BitVec n} (hn : n ≤ 28) (hv : operandBits i = v.setWidth 32) :
    encode i = BitVec.ofNat 32 (i.mnemonic.row.pattern.toNat + v.toNat) := by
  have hclear : i.mnemonic.row.pattern &&& operandBits i = 0 := by
    rw [BitVec.and_comm, hv]
    exact Laws.EncodeRow.setWidth_and_high v fun k hk => row_pattern_getLsbD_low _ k (by omega)
  rw [encode_eq_add hclear, hv, BitVec.ofNat_add, BitVec.ofNat_toNat, BitVec.ofNat_toNat, BitVec.setWidth_eq]

theorem extractLsb'_encode {i : Instr} {n : Nat} {v : BitVec n} (hn : n ≤ 28) (hv : operandBits i = v.setWidth 32) :
    (encode i).extractLsb' 0 n = v := by
  have hpattern : i.mnemonic.row.pattern.extractLsb' 0 n = 0#n := by
    apply BitVec.eq_of_getLsbD_eq
    intro k hk
    simp [row_pattern_getLsbD_low i.mnemonic k (by omega)]
  rw [encode, hv, BitVec.extractLsb'_or, hpattern, BitVec.zero_or, BitVec.extractLsb'_setWidth_of_le (by omega),
    BitVec.extractLsb'_eq_self]

/-- A command whose word meets its row and gives its operands back decodes from the number of its word. -/
theorem decode_ofNat {i : Instr} {n : Nat} {v : BitVec n} (hn : n ≤ 28) (hv : operandBits i = v.setWidth 32)
    (hrow : Laws.EncodeRow.Statement i) (hfields : fieldsOf i.mnemonic (encode i) = i) :
    decode (BitVec.ofNat 32 (i.mnemonic.row.pattern.toNat + v.toNat)) = .instr i := by
  rw [← encode_eq_ofNat hn hv, decode_of_match hrow, hfields]

theorem decode_decode_word (raw : Raw) : decode (BitVec.ofNat 32 (0x20000000 + raw.toNat)) = .instr (.decode raw) :=
  decode_ofNat (i := .decode raw) (v := raw) (by decide) rfl (Laws.EncodeRow.decode raw)
    (congrArg Instr.decode (extractLsb'_encode (by decide) rfl))

theorem decode_tempconv_word (raw : Raw) :
    decode (BitVec.ofNat 32 (0x40000000 + raw.toNat)) = .instr (.tempconv raw) :=
  decode_ofNat (i := .tempconv raw) (v := raw) (by decide) rfl (Laws.EncodeRow.tempconv raw)
    (congrArg Instr.tempconv (extractLsb'_encode (by decide) rfl))

theorem decode_accconv_word (raw : Raw) :
    decode (BitVec.ofNat 32 (0x50000000 + raw.toNat)) = .instr (.accconv raw) :=
  decode_ofNat (i := .accconv raw) (v := raw) (by decide) rfl (Laws.EncodeRow.accconv raw)
    (congrArg Instr.accconv (extractLsb'_encode (by decide) rfl))

/-- ASSEMBLE's two bytes are one 16-bit field, `HI` above `LO` (R64). -/
theorem operandBits_assemble (lo hi : Byte) : operandBits (.assemble lo hi) = (hi ++ lo).setWidth 32 :=
  BitVec.setWidth_append_eq_shiftLeft_setWidth_or.symm

theorem fieldsOf_encode_assemble (lo hi : Byte) :
    fieldsOf .assemble (encode (.assemble lo hi)) = .assemble lo hi := by
  have hfield : (encode (.assemble lo hi)).extractLsb' 0 16 = hi ++ lo :=
    extractLsb'_encode (by decide) (operandBits_assemble lo hi)
  have hlo : (encode (.assemble lo hi)).extractLsb' 0 8 = lo := by
    rw [← BitVec.extractLsb'_extractLsb'_of_le (len' := 16) (by decide), hfield, BitVec.extractLsb'_append_eq_right]
  have hhi : (encode (.assemble lo hi)).extractLsb' 8 8 = hi := by
    rw [← BitVec.extractLsb'_extractLsb'_of_le (len' := 16) (by decide), hfield, BitVec.extractLsb'_append_eq_left]
  exact congrArg₂ Instr.assemble hlo hhi

theorem toNat_append_byte (lo hi : Byte) : (hi ++ lo).toNat = 0x100 * hi.toNat + lo.toNat := by
  rw [BitVec.toNat_append, ← Nat.shiftLeft_add_eq_or_of_lt lo.isLt, Nat.shiftLeft_eq, Nat.mul_comm]

theorem decode_assemble_word (lo hi : Byte) :
    decode (BitVec.ofNat 32 (0x30000000 + 0x100 * hi.toNat + lo.toNat)) = .instr (.assemble lo hi) := by
  rw [Nat.add_assoc, ← toNat_append_byte]
  exact decode_ofNat (i := .assemble lo hi) (by decide) (operandBits_assemble lo hi) (Laws.EncodeRow.assemble lo hi)
    (fieldsOf_encode_assemble lo hi)

end Sys2Proof
end

section
/-! SUPPORT. The gate's table in the terms of the statements (60_exceptions.md R164), and the four conversion commands
(41_conversion.md R102, R104, R107, R112). -/

namespace Sys2Proof.Machine

open Sys2Proof.Statements

theorem gate_run_of_mem_runsIn {m : Mnemonic} {x : Sess} (h : x ∈ runsIn m) : gate m x = .run := by
  revert h
  cases m <;> cases x <;> decide

theorem gate_outOfSequence_of_not_mem_runsIn {m : Mnemonic} {x : Sess} (hx : x ≠ .failed) (h : x ∉ runsIn m) :
    gate m x = .outOfSequence := by
  revert hx h
  cases m <;> cases x <;> decide

theorem exec_of_mem_runsIn {i : Instr} {s : State} (h : s.sess ∈ runsIn i.mnemonic) :
    exec i s = .next (ruleOf i s) := by
  rw [exec_eq_gated, gated_run (gate_run_of_mem_runsIn h)]

theorem exec_of_not_mem_runsIn {i : Instr} {s : State} (hs : s.sess ≠ .failed) (h : s.sess ∉ runsIn i.mnemonic) :
    exec i s = .next (raised .sequenceError s) := by
  rw [exec_eq_gated, gated_outOfSequence (gate_outOfSequence_of_not_mem_runsIn hs h), raise_eq_raised]

/-- The row of R164 that DECODE, ASSEMBLE and TEMPCONV share. -/
theorem mem_openStates {x : Sess} (h : x ≠ .failed) : x ∈ [Sess.unchecked, .identified, .configured] := by
  cases x with
  | failed => exact absurd rfl h
  | _ => decide

theorem exec_decode {raw : Raw} {s : State} (hs : s.sess ≠ .failed) :
    exec (.decode raw) s = .next (success (wrap32 raw.toInt) s) := by
  rw [exec_of_mem_runsIn (i := .decode raw) (mem_openStates hs), ← decodeSigned16_eq_toInt]
  rfl

theorem exec_assemble {lo hi : Byte} {s : State} (hs : s.sess ≠ .failed) :
    exec (.assemble lo hi) s = .next (success (zext32 (assembleSample lo hi)) s) :=
  exec_of_mem_runsIn (i := .assemble lo hi) (mem_openStates hs)

theorem exec_tempconv {raw : Raw} {s : State} (hs : s.sess ≠ .failed) :
    exec (.tempconv raw) s = .next (success (wrap32 (raw.toInt + 6400)) s) := by
  rw [exec_of_mem_runsIn (i := .tempconv raw) (mem_openStates hs), ← decodeSigned16_eq_toInt]
  rfl

theorem exec_accconv {raw : Raw} {s : State} (hs : s.sess = .configured) :
    exec (.accconv raw) s = .next (success (wrap32 (accFx scaleC s.cfgFs s.cfgMode raw)) s) :=
  exec_of_mem_runsIn (i := .accconv raw) (hs ▸ List.mem_singleton_self _)

theorem accFx_eq (scale : BitVec 2 → Mode → Nat) (fs : BitVec 2) (m : Mode) (raw : Raw) :
    accFx scale fs m raw = raw.toInt * scale fs m * countGain m := by
  rw [accFx, decodeSigned16_eq_toInt]

theorem assembleSample_eq_append (lo hi : Byte) : assembleSample lo hi = hi ++ lo := by
  rw [assembleSample, ← BitVec.setWidth_append_eq_shiftLeft_setWidth_or, BitVec.setWidth_eq]

/-- Settles O13: outside FAILED the gate lets DECODE run, and `wrap_32` of the decoded value is its sign extension. -/
theorem decodeCommand : Obligations.DecodeCommand := by
  intro raw s
  exact ⟨decode_decode_word raw, exec_decode, fun hf => exec_of_failed hf nofun,
    reservedBitsRaise .decode s⟩

/-- Settles O14: outside FAILED the gate lets ASSEMBLE run, and the assembled sample is `HI` appended to `LO`. -/
theorem assembleCommand : Obligations.AssembleCommand := by
  intro lo hi s
  refine ⟨decode_assemble_word lo hi, fun hs => ?_, fun hf => exec_of_failed hf nofun,
    reservedBitsRaise .assemble s⟩
  rw [exec_assemble hs, assembleSample_eq_append, zext32, ← BitVec.ofNat_toNat, toNat_append_byte]

/-- Settles O15: outside FAILED the gate lets TEMPCONV run, and the decoder is the two's-complement reading. -/
theorem tempconvCommand : Obligations.TempconvCommand := by
  intro raw s
  exact ⟨decode_tempconv_word raw, exec_tempconv, fun hf => exec_of_failed hf nofun,
    reservedBitsRaise .tempconv s⟩

/-- 256 / MODE_FACTOR (41_conversion.md R110), mode by mode. -/
theorem countGain_eq_of_mem {m : Mode} {k : Int}
    (h : (m, k) ∈ [(Mode.normal, (4 : Int)), (Mode.lowPower, 1), (Mode.highResolution, 16)]) :
    (countGain m : Int) = k := by
  simp only [List.mem_cons, List.not_mem_nil, or_false, Prod.mk.injEq] at h
  rcases h with ⟨rfl, rfl⟩ | ⟨rfl, rfl⟩ | ⟨rfl, rfl⟩ <;> rfl

/-- Settles O16: the gate lets ACCCONV run in CONFIGURED alone, whatever the scale entry is. -/
theorem accconvCommand : Obligations.AccconvCommand := by
  intro raw s
  refine ⟨decode_accconv_word raw, fun k hk hs => ?_, fun hs => ?_,
    fun hf => exec_of_failed hf nofun, reservedBitsRaise .accconv s⟩
  · rw [exec_accconv hs, accFx_eq, countGain_eq_of_mem hk, wrap32]
  · have hgate : s.sess ≠ .failed ∧ s.sess ∉ runsIn .accconv := by rcases hs with h | h <;> rw [h] <;> decide
    exact exec_of_not_mem_runsIn hgate.1 hgate.2

end Sys2Proof.Machine
end

section
/-! SUPPORT. The decoder of signed samples, at 16 bits and at every width (41_conversion.md R100, R101). -/

namespace Sys2Proof.Machine

theorem decodeSigned16_emod (raw : Raw) : decodeSigned16 raw % 65536 = raw.toNat := by
  have hlt := raw.isLt
  calc decodeSigned16 raw % 65536
      = (raw.toNat : Int).bmod 65536 % (65536 : Nat) := by
        rw [decodeSigned16_eq_toInt, BitVec.toInt_eq_toNat_bmod]
        rfl
    _ = raw.toNat := by
        rw [Int.bmod_emod]
        omega

/-- Every integer of 16 signed bits is decoded from its own pattern. -/
theorem decodeSigned16_ofInt {c : Int} (hlow : -32768 ≤ c) (hhigh : c ≤ 32767) :
    decodeSigned16 (BitVec.ofInt 16 c) = c := by
  rw [decodeSigned16_eq_toInt, BitVec.toInt_ofInt]
  apply Int.bmod_eq_of_le <;> omega

/-- Settles O37: the remainder mod 2^16 is the raw value, which decoding therefore gives back; the rest is the
two's-complement reading's range. -/
theorem decodeSignedLaws : Obligations.DecodeSignedLaws := by
  refine ⟨decodeSigned16_bounds, fun raw => ?_, by decide, decodeSigned16_emod,
    fun c hlow hhigh => ⟨_, decodeSigned16_ofInt hlow hhigh⟩⟩
  rw [decodeSigned16_emod, Int.toNat_natCast, BitVec.ofNat_toNat, BitVec.setWidth_eq]

theorem decodeSigned_of_not_fits {v n : Nat} (h : 2 ^ n ≤ v) : decodeSigned v n = none := if_pos (.inr h)

/-- The sign bit is clear. -/
theorem decodeSigned_of_lt_half {v k : Nat} (h : v < 2 ^ k) : decodeSigned v (k + 1) = some v := by
  have hfits : ¬(k + 1 = 0 ∨ 2 ^ (k + 1) ≤ v) := by rw [pow_succ]; omega
  rw [decodeSigned, if_neg hfits, Nat.add_sub_cancel, Nat.testBit_lt_two_pow h]
  rfl

/-- The sign bit is set. -/
theorem decodeSigned_of_half_le {v k : Nat} (hhalf : 2 ^ k ≤ v) (hv : v < 2 ^ (k + 1)) :
    decodeSigned v (k + 1) = some ((v : Int) - 2 ^ (k + 1)) := by
  have hfits : ¬(k + 1 = 0 ∨ 2 ^ (k + 1) ≤ v) := by omega
  rw [decodeSigned, if_neg hfits, Nat.add_sub_cancel, Nat.testBit_of_two_pow_le_and_two_pow_add_one_gt hhalf hv]
  rfl

theorem decodeSigned_toNat (raw : Raw) : decodeSigned raw.toNat 16 = some (decodeSigned16 raw) := by
  have hfits : ¬(16 = 0 ∨ 2 ^ 16 ≤ raw.toNat) := by have := raw.isLt; omega
  rw [decodeSigned, if_neg hfits, BitVec.testBit_toNat, decodeSigned16, apply_ite some]
  rfl

/-- A value that fits decodes to the integer of the signed range congruent to it. -/
theorem decodeSigned_of_fits {v k : Nat} (hv : v < 2 ^ (k + 1)) :
    ∃ c : Int, decodeSigned v (k + 1) = some c ∧ c % 2 ^ (k + 1) = v ∧ -(2 ^ k) ≤ c ∧ c < 2 ^ k := by
  have hmod : (v : Int) % 2 ^ (k + 1) = v := Int.emod_eq_of_lt (by positivity) (by exact_mod_cast hv)
  have hdouble : (2 : Int) ^ (k + 1) = 2 * 2 ^ k := pow_succ' 2 k
  have hpos : (0 : Int) < 2 ^ k := by positivity
  have hvInt : (v : Int) < 2 ^ (k + 1) := by exact_mod_cast hv
  rcases lt_or_ge v (2 ^ k) with hhalf | hhalf
  · have hlt : (v : Int) < 2 ^ k := by exact_mod_cast hhalf
    exact ⟨v, decodeSigned_of_lt_half hhalf, hmod, by omega, hlt⟩
  · have hle : (2 : Int) ^ k ≤ v := by exact_mod_cast hhalf
    exact ⟨_, decodeSigned_of_half_le hhalf hv, by rw [Int.sub_emod_right, hmod], by omega, by omega⟩

/-- Settles O38: a width of at least one bit has a sign bit, which splits the values that fit into the two halves of the
signed range. -/
theorem generalDecodeSigned : Obligations.GeneralDecodeSigned := by
  intro v n hn
  obtain ⟨k, rfl⟩ := Nat.exists_eq_add_one_of_ne_zero hn.ne'
  exact ⟨decodeSigned_of_fits, decodeSigned_of_not_fits, decodeSigned_toNat⟩

end Sys2Proof.Machine
end

section
/-! SUPPORT. The conversions lose nothing: the bounds under which `wrap_32` is exact, and the source's formulas
(41_conversion.md R105 to R114). -/

namespace Sys2Proof.Machine

open Sys2Proof.Statements

theorem toInt_bounds (raw : Raw) : -32768 ≤ raw.toInt ∧ raw.toInt ≤ 32767 :=
  decodeSigned16_eq_toInt raw ▸ decodeSigned16_bounds raw

/-- Settles O39: the sample plus 6400 fits 32 signed bits, and 6400 / 256 is 25. -/
theorem temperatureIsExact : Obligations.TemperatureIsExact := by
  intro raw s hs
  obtain ⟨hlow, hhigh⟩ := toInt_bounds raw
  have hd : (wrap32 (raw.toInt + 6400)).toInt = raw.toInt + 6400 := toInt_wrap32 (by omega) (by omega)
  refine ⟨_, _, exec_tempconv hs, rfl, hd, ?_, by omega, by omega⟩
  rw [hd]
  push_cast
  ring

/-- Every fill gives a well-formed table (00_scope.md R7). -/
theorem scaleOf_wellFormed (fill : BitVec 2 → Mode → Nat) : ScaleWellFormed (scaleOf fill) := by
  refine ⟨rfl, fun fs m => ?_⟩
  rw [scaleOf]
  split
  next h =>
    rw [h.2]
    decide
  next =>
    have hentry : 1 + fill fs m % (65536 / countGain m) ≤ 65536 / countGain m := by
      have hpos : 0 < 65536 / countGain m := by cases m <;> decide
      have hlt := Nat.mod_lt (fill fs m) hpos
      omega
    exact ⟨Nat.mul_pos (by omega) (countGain_pos m),
      (Nat.mul_le_mul_right _ hentry).trans (Nat.div_mul_le_self 65536 _)⟩

/-- R111's range: the decoded sample times a product of at most 65536. -/
theorem accFx_bounds {scale : BitVec 2 → Mode → Nat} (h : ScaleWellFormed scale) (fs : BitVec 2) (m : Mode) (raw : Raw) :
    -2147483648 ≤ accFx scale fs m raw ∧ accFx scale fs m raw ≤ 2147418112 := by
  obtain ⟨hlow, hhigh⟩ := toInt_bounds raw
  have hgain : (scale fs m : Int) * countGain m ≤ 65536 := by exact_mod_cast (h.2 fs m).2
  have hnonneg : 0 ≤ (scale fs m : Int) * countGain m := by positivity
  have hleast := mul_le_mul_of_nonneg_right hlow hnonneg
  have hgreatest := mul_le_mul_of_nonneg_right hhigh hnonneg
  rw [accFx_eq, mul_assoc]
  constructor <;> linarith

theorem toInt_wrap32_accFx {scale : BitVec 2 → Mode → Nat} (h : ScaleWellFormed scale) (fs : BitVec 2) (m : Mode)
    (raw : Raw) : (wrap32 (accFx scale fs m raw)).toInt = accFx scale fs m raw := by
  obtain ⟨hlow, hhigh⟩ := accFx_bounds h fs m raw
  exact toInt_wrap32 hlow (by omega)

/-- R113: in units of 1/25,600,000 g the fixed-point value is the source's formula, for `k * MODE_FACTOR` = 256. -/
theorem accFx_div_eq_accelerationG (scale : BitVec 2 → Mode → Nat) (fs : BitVec 2) (m : Mode) (raw : Raw) :
    (accFx scale fs m raw : ℚ) / 25600000 = accelerationG scale fs m raw := by
  have hfactor : (modeFactor m : ℚ) ≠ 0 := by cases m <;> norm_num [modeFactor]
  have hgain : (countGain m : ℚ) = 256 / modeFactor m :=
    eq_div_of_mul_eq hfactor (by exact_mod_cast countGain_mul_modeFactor m)
  rw [accelerationG, mgPerLsb, accFx]
  push_cast
  rw [hgain]
  ring

/-- Settles O40: R7 bounds the scale entry times `k`, so `wrap_32` is exact, and the value is the source's formula; the
block's own table is one of the well-formed ones. -/
theorem accelerationIsExact : Obligations.AccelerationIsExact := by
  refine ⟨fun scale raw s hwf => ⟨_, rfl, ?_⟩, fun raw s hs => ⟨_, exec_accconv hs, ?_⟩⟩
  · obtain ⟨hlow, hhigh⟩ := accFx_bounds hwf s.cfgFs s.cfgMode raw
    rw [toInt_wrap32_accFx hwf, accFx_div_eq_accelerationG, ← decodeSigned16_eq_toInt]
    exact ⟨rfl, hlow, hhigh, rfl⟩
  · rw [toInt_wrap32_accFx (scale := scaleC) (scaleOf_wellFormed _), accFx_div_eq_accelerationG]

end Sys2Proof.Machine
end

section
/-! SUPPORT. A field placed in a byte, and the control images as sums of their disjoint fields (42_config_encoder.md
R134, R136, R138). -/

namespace Sys2Proof.Machine

/-- A field placed at bit `lo` is disjoint from a byte with no bit at its places. -/
theorem placed_and_eq_zero {n lo : Nat} (v : BitVec n) {b : Byte} (h : ∀ k < n, b.getLsbD (lo + k) = false) :
    v.setWidth 8 <<< lo &&& b = 0 := by
  apply BitVec.eq_of_getLsbD_eq
  intro k _
  rw [BitVec.getLsbD_and, BitVec.getLsbD_shiftLeft, BitVec.getLsbD_setWidth]
  by_cases hlo : k < lo
  · simp [hlo]
  · by_cases hn : k - lo < n
    · have hk := h (k - lo) hn
      rw [show lo + (k - lo) = k by omega] at hk
      simp [hk]
    · simp [BitVec.getLsbD_of_ge v (k - lo) (by omega)]

/-- A field of at most four bits fits above the low nibble. -/
theorem toNat_placed_four {n : Nat} (v : BitVec n) (hn : n ≤ 4) : (v.setWidth 8 <<< 4).toNat = 16 * v.toNat := by
  have hv : v.toNat < 16 := v.isLt.trans_le (Nat.pow_le_pow_right two_pos hn)
  rw [BitVec.toNat_shiftLeft, BitVec.toNat_setWidth, Nat.shiftLeft_eq]
  omega

/-- R138: the OR of disjoint parts is their sum. -/
theorem or_or_eq_add {a b c : Byte} (hab : a &&& b = 0) (hac : a &&& c = 0) (hbc : b &&& c = 0) :
    a ||| b ||| c = a + b + c := by
  have habc : (a ||| b) &&& c = 0 := by
    rw [BitVec.and_comm, BitVec.and_or_distrib_left, BitVec.and_comm c a, hac, BitVec.and_comm c b, hbc]
    rfl
  rw [← BitVec.add_eq_or_of_and_eq_zero _ _ habc, ← BitVec.add_eq_or_of_and_eq_zero _ _ hab]

theorem toNat_lpBit (m : Mode) : (lpBit m).toNat = 8 * if m = .lowPower then 1 else 0 := by cases m <;> rfl

theorem toNat_hrBit (m : Mode) : (hrBit m).toNat = 8 * if m = .highResolution then 1 else 0 := by cases m <;> rfl

theorem cr1Image_parts_disjoint (odr : BitVec 4) (m : Mode) :
    cr1Base &&& (odr.setWidth 8 <<< 4) = 0 ∧ cr1Base &&& lpBit m = 0 ∧ (odr.setWidth 8 <<< 4) &&& lpBit m = 0 := by
  refine ⟨?_, by cases m <;> rfl, placed_and_eq_zero odr (by cases m <;> decide)⟩
  rw [BitVec.and_comm]
  exact placed_and_eq_zero odr (by decide)

theorem cr4Image_parts_disjoint (fs : BitVec 2) (m : Mode) :
    cr4Base &&& (fs.setWidth 8 <<< 4) = 0 ∧ cr4Base &&& hrBit m = 0 ∧ (fs.setWidth 8 <<< 4) &&& hrBit m = 0 := by
  refine ⟨?_, by cases m <;> rfl, placed_and_eq_zero fs (by cases m <;> decide)⟩
  rw [BitVec.and_comm]
  exact placed_and_eq_zero fs (by decide)

/-- The CTRL_REG1 image `{odr[3:0], LP, 0b111}` as a number (R135). -/
theorem toNat_cr1Image (odr : BitVec 4) (m : Mode) :
    (cr1Image odr m).toNat = 16 * odr.toNat + 8 * (if m = .lowPower then 1 else 0) + 7 := by
  obtain ⟨hbaseOdr, hbaseLp, hodrLp⟩ := cr1Image_parts_disjoint odr m
  have hodr := odr.isLt
  rw [cr1Image, or_or_eq_add hbaseOdr hbaseLp hodrLp, BitVec.toNat_add, BitVec.toNat_add,
    toNat_placed_four odr (by decide), toNat_lpBit, show cr1Base.toNat = 7 from rfl]
  split <;> omega

/-- The CTRL_REG4 image `{1, 0, fs[1:0], HR, 0b000}` as a number (R137). -/
theorem toNat_cr4Image (fs : BitVec 2) (m : Mode) :
    (cr4Image fs m).toNat = 128 + 16 * fs.toNat + 8 * (if m = .highResolution then 1 else 0) := by
  obtain ⟨hbaseFs, hbaseHr, hfsHr⟩ := cr4Image_parts_disjoint fs m
  have hfs := fs.isLt
  rw [cr4Image, or_or_eq_add hbaseFs hbaseHr hfsHr, BitVec.toNat_add, BitVec.toNat_add,
    toNat_placed_four fs (by decide), toNat_hrBit, show cr4Base.toNat = 128 from rfl]
  split <;> omega

/-- The fields of the CTRL_REG1 image (40_register_map.md R86). -/
theorem read_cr1Image (odr : BitVec 4) (m : Mode) :
    cr1AxisEnables.read (cr1Image odr m) = 7 ∧
    cr1Lp.read (cr1Image odr m) = (if m = .lowPower then 1 else 0) ∧
    cr1Odr.read (cr1Image odr m) = odr.toNat := by
  have hodr := odr.isLt
  simp only [BitField.read, cr1AxisEnables, cr1Lp, cr1Odr, toNat_cr1Image]
  split <;> omega

/-- The fields of the CTRL_REG4 image (40_register_map.md R87). -/
theorem read_cr4Image (fs : BitVec 2) (m : Mode) :
    cr4Bdu.read (cr4Image fs m) = 1 ∧ cr4Fs.read (cr4Image fs m) = fs.toNat ∧
    cr4Hr.read (cr4Image fs m) = (if m = .highResolution then 1 else 0) ∧
    cr4Unnamed6.read (cr4Image fs m) = 0 ∧ cr4Unnamed2to0.read (cr4Image fs m) = 0 := by
  have hfs := fs.isLt
  simp only [BitField.read, cr4Bdu, cr4Fs, cr4Hr, cr4Unnamed6, cr4Unnamed2to0, toNat_cr4Image]
  split <;> omega

/-- Settles O45: the parts of an image are disjoint, so the image is their sum, and a field reads one term of it. -/
theorem controlImageFieldsReadBack : Obligations.ControlImageFieldsReadBack := by
  intro odr fs m
  obtain ⟨haxes, hlp, hodr⟩ := read_cr1Image odr m
  obtain ⟨hbdu, hfs, hhr, hbit6, hlow⟩ := read_cr4Image fs m
  obtain ⟨hbaseOdr, hbaseLp, hodrLp⟩ := cr1Image_parts_disjoint odr m
  exact ⟨haxes, hlp, hodr, hbdu, hfs, hhr, hbit6, hlow, hbaseOdr, hbaseLp, hodrLp, cr4Image_parts_disjoint fs m⟩

end Sys2Proof.Machine
end

section
/-! SUPPORT. BUILDCR1 and BUILDCR4 answer the images of the latched configuration (42_config_encoder.md R135, R137,
R139). -/

namespace Sys2Proof.Machine

open Sys2Proof.Statements

/-- The "-" cells of R164, for a row with two of them. -/
theorem exec_outOfSequence {i : Instr} {s : State} {x y : Sess} (hs : s.sess = x ∨ s.sess = y)
    (hx : x ≠ .failed ∧ x ∉ runsIn i.mnemonic) (hy : y ≠ .failed ∧ y ∉ runsIn i.mnemonic) :
    exec i s = .next (raised .sequenceError s) := by
  have hgate : s.sess ≠ .failed ∧ s.sess ∉ runsIn i.mnemonic := by
    rcases hs with h | h <;> rwa [h]
  exact exec_of_not_mem_runsIn hgate.1 hgate.2

theorem exec_buildcr1 {s : State} (hs : s.sess = .configured) :
    exec .buildcr1 s = .next (success (zext32 (cr1Image s.cfgOdr s.cfgMode)) s) :=
  exec_of_mem_runsIn (i := .buildcr1) (hs ▸ List.mem_singleton_self _)

theorem exec_buildcr4 {s : State} (hs : s.sess = .configured) :
    exec .buildcr4 s = .next (success (zext32 (cr4Image s.cfgFs s.cfgMode)) s) :=
  exec_of_mem_runsIn (i := .buildcr4) (hs ▸ List.mem_singleton_self _)

theorem zext32_eq_ofNat (b : Byte) : zext32 b = BitVec.ofNat 32 b.toNat := (BitVec.ofNat_toNat 32 b).symm

/-- The `LP` of a mode (R134), from its table. -/
theorem eq_lp_of_mem {m : Mode} {lp : Nat}
    (h : (m, lp) ∈ [(Mode.normal, 0), (Mode.lowPower, 1), (Mode.highResolution, 0)]) :
    lp = if m = .lowPower then 1 else 0 := by
  simp only [List.mem_cons, List.not_mem_nil, or_false, Prod.mk.injEq] at h
  rcases h with ⟨rfl, rfl⟩ | ⟨rfl, rfl⟩ | ⟨rfl, rfl⟩ <;> rfl

/-- The `HR` of a mode (R136), from its table. -/
theorem eq_hr_of_mem {m : Mode} {hr : Nat}
    (h : (m, hr) ∈ [(Mode.normal, 0), (Mode.lowPower, 0), (Mode.highResolution, 1)]) :
    hr = if m = .highResolution then 1 else 0 := by
  simp only [List.mem_cons, List.not_mem_nil, or_false, Prod.mk.injEq] at h
  rcases h with ⟨rfl, rfl⟩ | ⟨rfl, rfl⟩ | ⟨rfl, rfl⟩ <;> rfl

/-- Settles O18: the gate lets BUILDCR1 run in CONFIGURED alone, and the image is the sum of its fields. -/
theorem buildcr1Command : Obligations.Buildcr1Command := by
  intro s
  refine ⟨decode_of_match (m := .buildcr1) rfl, fun lp hlp hs => ?_,
    fun hs => exec_outOfSequence hs (by decide) (by decide), fun hf => exec_of_failed hf nofun,
    reservedBitsRaise .buildcr1 s⟩
  rw [exec_buildcr1 hs, zext32_eq_ofNat, toNat_cr1Image, ← eq_lp_of_mem hlp]

/-- Settles O19: the gate lets BUILDCR4 run in CONFIGURED alone, and the image is the sum of its fields. -/
theorem buildcr4Command : Obligations.Buildcr4Command := by
  intro s
  refine ⟨decode_of_match (m := .buildcr4) rfl, fun hr hhr hs => ?_,
    fun hs => exec_outOfSequence hs (by decide) (by decide), fun hf => exec_of_failed hf nofun,
    reservedBitsRaise .buildcr4 s⟩
  rw [exec_buildcr4 hs, zext32_eq_ofNat, toNat_cr4Image, ← eq_hr_of_mem hhr]

/-- A field of one bit, in an answer of 32 bits. -/
theorem getLsbD_zext32_iff_read (b : Byte) {k : Nat} (hk : k < 32) :
    (zext32 b).getLsbD k = true ↔ (BitField.mk k k).read b = 1 := by
  rw [zext32_eq_ofNat, BitVec.getLsbD_ofNat, decide_eq_true hk, Bool.true_and, Nat.testBit_eq_decide_div_mod_eq,
    decide_eq_true_iff, BitField.read, Nat.add_sub_cancel_left, pow_one]

theorem cr1_bit3_iff (odr : BitVec 4) (m : Mode) : (zext32 (cr1Image odr m)).getLsbD 3 = true ↔ m = .lowPower := by
  obtain ⟨-, hlp, -⟩ := read_cr1Image odr m
  rw [getLsbD_zext32_iff_read _ (by decide), show BitField.mk 3 3 = cr1Lp from rfl, hlp]
  simp

theorem cr4_bit3_iff (fs : BitVec 2) (m : Mode) :
    (zext32 (cr4Image fs m)).getLsbD 3 = true ↔ m = .highResolution := by
  obtain ⟨-, -, hhr, -, -⟩ := read_cr4Image fs m
  rw [getLsbD_zext32_iff_read _ (by decide), show BitField.mk 3 3 = cr4Hr from rfl, hhr]
  simp

/-- Settles O46: bit 3 is LP in one image and HR in the other, and one mode is not both lowPower and highResolution. -/
theorem lowPowerAndHighResolutionExclude : Obligations.LowPowerAndHighResolutionExclude := by
  intro s hs
  have hlp := cr1_bit3_iff s.cfgOdr s.cfgMode
  have hhr := cr4_bit3_iff s.cfgFs s.cfgMode
  refine ⟨_, _, exec_buildcr1 hs, exec_buildcr4 hs, hlp, hhr, fun ⟨hd, he⟩ => ?_⟩
  cases (hlp.1 hd).symm.trans (hhr.1 he)

end Sys2Proof.Machine
end

section
/-! SUPPORT. CFGLOAD: the word with its three fields (30_encoding.md R64), and the codes of its operands
(42_config_encoder.md R131 to R133). -/

namespace Sys2Proof

/-- CFGLOAD's operands are one 14-bit field, `MODE` above `RANGE_G` above `ODR` (R64). -/
theorem operandBits_cfgload (odr : BitVec 4) (rangeG : Byte) (mode : BitVec 2) :
    operandBits (.cfgload odr rangeG mode) = (mode ++ rangeG ++ odr).setWidth 32 := by
  rw [BitVec.setWidth_append_eq_shiftLeft_setWidth_or, BitVec.setWidth_append_eq_shiftLeft_setWidth_or,
    BitVec.shiftLeft_or_distrib, ← BitVec.shiftLeft_add]
  rfl

theorem fieldsOf_encode_cfgload (odr : BitVec 4) (rangeG : Byte) (mode : BitVec 2) :
    fieldsOf .cfgload (encode (.cfgload odr rangeG mode)) = .cfgload odr rangeG mode := by
  have hfield : (encode (.cfgload odr rangeG mode)).extractLsb' 0 14 = mode ++ rangeG ++ odr :=
    extractLsb'_encode (by decide) (operandBits_cfgload odr rangeG mode)
  have hodr : (encode (.cfgload odr rangeG mode)).extractLsb' 0 4 = odr := by
    rw [← BitVec.extractLsb'_extractLsb'_of_le (len' := 14) (by decide), hfield, BitVec.extractLsb'_append_eq_right]
  have hrange : (encode (.cfgload odr rangeG mode)).extractLsb' 4 8 = rangeG := by
    rw [← BitVec.extractLsb'_extractLsb'_of_le (len' := 14) (by decide), hfield,
      BitVec.extractLsb'_append_eq_of_le (by decide)]
    exact BitVec.extractLsb'_append_eq_right
  have hmode : (encode (.cfgload odr rangeG mode)).extractLsb' 12 2 = mode := by
    rw [← BitVec.extractLsb'_extractLsb'_of_le (len' := 14) (by decide), hfield,
      BitVec.extractLsb'_append_eq_of_le (by decide)]
    exact BitVec.extractLsb'_append_eq_left
  simp only [fieldsOf, hodr, hrange, hmode]

theorem toNat_append_cfgload (odr : BitVec 4) (rangeG : Byte) (mode : BitVec 2) :
    (mode ++ rangeG ++ odr).toNat = 0x1000 * mode.toNat + 0x10 * rangeG.toNat + odr.toNat := by
  rw [BitVec.toNat_append, BitVec.toNat_append, ← Nat.shiftLeft_add_eq_or_of_lt odr.isLt,
    ← Nat.shiftLeft_add_eq_or_of_lt rangeG.isLt, Nat.shiftLeft_eq, Nat.shiftLeft_eq]
  ring

theorem decode_cfgload_word (odr : BitVec 4) (rangeG : Byte) (mode : BitVec 2) :
    decode (BitVec.ofNat 32 (0x60000000 + 0x1000 * mode.toNat + 0x10 * rangeG.toNat + odr.toNat)) =
      .instr (.cfgload odr rangeG mode) := by
  rw [Nat.add_assoc, Nat.add_assoc, ← Nat.add_assoc (0x1000 * _), ← toNat_append_cfgload]
  exact decode_ofNat (i := .cfgload odr rangeG mode) (by decide) (operandBits_cfgload odr rangeG mode)
    (Laws.EncodeRow.cfgload odr rangeG mode) (fieldsOf_encode_cfgload odr rangeG mode)

end Sys2Proof

namespace Sys2Proof.Machine

open Sys2Proof.Statements

theorem fsCodeRom_of_mem {rangeG : Byte} {fs : BitVec 2}
    (h : (rangeG, fs) ∈ [((2 : Byte), (0b00 : BitVec 2)), (4, 0b01), (8, 0b10), (16, 0b11)]) :
    fsCodeRom rangeG = some fs := by
  simp only [List.mem_cons, List.not_mem_nil, or_false, Prod.mk.injEq] at h
  rcases h with ⟨rfl, rfl⟩ | ⟨rfl, rfl⟩ | ⟨rfl, rfl⟩ | ⟨rfl, rfl⟩ <;> rfl

theorem fsCodeRom_of_not_mem {rangeG : Byte} (h : rangeG ∉ [(2 : Byte), 4, 8, 16]) : fsCodeRom rangeG = none := by
  have hmem : rangeG.toNat ∉ [2, 4, 8, 16] :=
    fun hn => h ((List.mem_map_of_injective (l := [(2 : Byte), 4, 8, 16]) fun _ _ => BitVec.eq_of_toNat_eq).1 hn)
  rw [fsCodeRom]
  split <;> simp_all

theorem modeOfCode_of_mem {mode : BitVec 2} {m : Mode}
    (h : (mode, m) ∈ [((0b00 : BitVec 2), Mode.normal), (0b01, .lowPower), (0b10, .highResolution)]) :
    modeOfCode mode = some m := by
  simp only [List.mem_cons, List.not_mem_nil, or_false, Prod.mk.injEq] at h
  rcases h with ⟨rfl, rfl⟩ | ⟨rfl, rfl⟩ | ⟨rfl, rfl⟩ <;> rfl

theorem exec_cfgload {odr : BitVec 4} {rangeG : Byte} {mode : BitVec 2} {s : State} (hs : s.sess = .identified) :
    exec (.cfgload odr rangeG mode) s = .next (cfgloadRule odr rangeG mode s) :=
  exec_of_mem_runsIn (i := .cfgload odr rangeG mode) (hs ▸ List.mem_singleton_self _)

/-- Settles O17: the gate lets CFGLOAD run in IDENTIFIED alone, where it latches when both operands have codes. -/
theorem cfgloadCommand : Obligations.CfgloadCommand := by
  intro odr rangeG mode s
  refine ⟨decode_cfgload_word odr rangeG mode, fun hs fs m hfs hm => ?_, fun hs hbad => ?_,
    fun hs => exec_outOfSequence hs (by simp [Instr.mnemonic, runsIn]) (by simp [Instr.mnemonic, runsIn]),
    fun hf => exec_of_failed hf nofun, reservedBitsRaise .cfgload s⟩
  · rw [exec_cfgload hs, cfgloadRule, fsCodeRom_of_mem hfs, modeOfCode_of_mem hm]
    rfl
  · have hcode : fsCodeRom rangeG = none ∨ modeOfCode mode = none :=
      hbad.imp fsCodeRom_of_not_mem fun h => by rw [h]; rfl
    rw [exec_cfgload hs]
    rcases cfgloadRule_cases odr rangeG mode s with ⟨fs, m, hfs, hm, -⟩ | ⟨-, h⟩
    · simp [hfs, hm] at hcode
    · rw [h, raise_eq_raised]

end Sys2Proof.Machine
end

section
/-! SUPPORT. IDCHECK: its word, and a match and a mismatch in UNCHECKED (43_identity_status.md R150, R151). -/

namespace Sys2Proof

theorem decode_idcheck_word (v : Byte) : decode (BitVec.ofNat 32 (0x90000000 + v.toNat)) = .instr (.idcheck v) :=
  decode_ofNat (i := .idcheck v) (v := v) (by decide) rfl (Laws.EncodeRow.idcheck v)
    (congrArg Instr.idcheck (extractLsb'_encode (by decide) rfl))

end Sys2Proof

namespace Sys2Proof.Machine

open Sys2Proof.Statements

theorem exec_idcheck {v : Byte} {s : State} (hs : s.sess = .unchecked) :
    exec (.idcheck v) s = .next (idcheckRule v s) :=
  exec_of_mem_runsIn (i := .idcheck v) (hs ▸ List.mem_singleton_self _)

theorem exec_idcheck_of_match {s : State} (hs : s.sess = .unchecked) :
    exec (.idcheck 0x33) s = .next (success 1 { s with sess := .identified }) := by
  rcases idcheckRule_cases 0x33 s with ⟨-, h⟩ | ⟨hne, -⟩
  · rw [exec_idcheck hs, h, succeed_eq_success]
  · exact absurd rfl hne

theorem exec_idcheck_of_mismatch {v : Byte} {s : State} (hs : s.sess = .unchecked) (hv : v ≠ 0x33) :
    exec (.idcheck v) s = .next (raised .identityMismatch s) := by
  rcases idcheckRule_cases v s with ⟨heq, -⟩ | ⟨-, h⟩
  · exact absurd heq hv
  · rw [exec_idcheck hs, h, raise_eq_raised]

/-- Settles O20: the gate lets IDCHECK run in UNCHECKED alone, where its rule has the two cases of R150. -/
theorem idcheckCommand : Obligations.IdcheckCommand := by
  intro v s
  exact ⟨decode_idcheck_word v, fun hs hv => hv ▸ exec_idcheck_of_match hs, exec_idcheck_of_mismatch,
    fun hs => exec_outOfSequence hs (by simp [Instr.mnemonic, runsIn]) (by simp [Instr.mnemonic, runsIn]),
    fun hf => exec_of_failed hf nofun, reservedBitsRaise .idcheck s⟩

end Sys2Proof.Machine
end

section
/-! SUPPORT. STATUS: the shown word as the sum of its fields, and the words FAILED refuses (43_identity_status.md R152,
60_exceptions.md R161). -/

namespace Sys2Proof.Machine

open Sys2Proof.Statements

/-- STATUS has no "-" cell and no refusal in R164. -/
theorem exec_status (s : State) : exec .status s = .next (success (zext32 (statusBits s)) s) :=
  calc exec .status s
      = .next (gated .status (ruleOf .status) s) := exec_eq_gated ..
    _ = .next (succeed (zext32 (statusBits s)) s) := congrArg _ (gated_run rfl _)
    _ = .next (success (zext32 (statusBits s)) s) := congrArg _ (succeed_eq_success ..)

/-- A field above another, as a number. -/
theorem toNat_append_eq_add {m n : Nat} (hi : BitVec m) (lo : BitVec n) :
    (hi ++ lo).toNat = 2 ^ n * hi.toNat + lo.toNat := by
  rw [BitVec.toNat_append, ← Nat.shiftLeft_add_eq_or_of_lt lo.isLt, Nat.shiftLeft_eq, Nat.mul_comm]

/-- The places of the five fields in the STATUS word (R152). -/
theorem toNat_statusBits (s : State) :
    (statusBits s).toNat = s.err.bits.toNat + 16 * s.sess.bits.toNat + 256 * s.cfgOdr.toNat + 4096 * s.cfgFs.toNat +
      16384 * (modeBits s.cfgMode).toNat := by
  simp only [statusBits, toNat_append_eq_add, BitVec.toNat_ofNat]
  omega

theorem toNat_sessBits_of_mem {x : Sess} {n : Nat}
    (h : (x, n) ∈ [(Sess.unchecked, 0), (Sess.identified, 1), (Sess.configured, 2), (Sess.failed, 3)]) :
    x.bits.toNat = n := by
  simp only [List.mem_cons, List.not_mem_nil, or_false, Prod.mk.injEq] at h
  rcases h with ⟨rfl, rfl⟩ | ⟨rfl, rfl⟩ | ⟨rfl, rfl⟩ | ⟨rfl, rfl⟩ <;> rfl

theorem toNat_codeBits_of_mem {e : Code} {n : Nat}
    (h : (e, n) ∈ [(Code.none, 0), (Code.illegalCmd, 1), (Code.configError, 2), (Code.identityMismatch, 3),
      (Code.sequenceError, 4), (Code.sessionFailed, 5)]) :
    e.bits.toNat = n := by
  simp only [List.mem_cons, List.not_mem_nil, or_false, Prod.mk.injEq] at h
  rcases h with ⟨rfl, rfl⟩ | ⟨rfl, rfl⟩ | ⟨rfl, rfl⟩ | ⟨rfl, rfl⟩ | ⟨rfl, rfl⟩ | ⟨rfl, rfl⟩ <;> rfl

theorem toNat_modeBits_of_mem {m : Mode} {n : Nat}
    (h : (m, n) ∈ [(Mode.normal, 0), (Mode.lowPower, 1), (Mode.highResolution, 2)]) : (modeBits m).toNat = n := by
  simp only [List.mem_cons, List.not_mem_nil, or_false, Prod.mk.injEq] at h
  rcases h with ⟨rfl, rfl⟩ | ⟨rfl, rfl⟩ | ⟨rfl, rfl⟩ <;> rfl

/-- R161: FAILED refuses every word but the legal STATUS. -/
theorem runCommand_of_failed {w : Word} {s : State} (hs : s.sess = .failed) (hw : w ≠ statusWord) :
    runCommand w s = .next (refusedIn s) := by
  rcases runCommand_cases w s with ⟨-, -, h⟩ | ⟨hn, -⟩ | ⟨hn, -⟩
  · rw [h, refuse_eq_refusedIn]
  · exact absurd ⟨hs, hw⟩ hn
  · exact absurd ⟨hs, hw⟩ hn

/-- The legal STATUS word has no reserved bit. -/
theorem ne_statusWord_of_reservedBits {w : Word} (h : w &&& 0x0FFFFFFF ≠ 0) : w ≠ statusWord := by
  rintro rfl
  exact h (by decide)

/-- Settles O21: the gate lets STATUS run in every state, and its fields are disjoint, so the word is their sum; a
spelling with a reserved bit is no command, and not the one word that FAILED answers. -/
theorem statusCommand : Obligations.StatusCommand := by
  intro s
  refine ⟨decode_of_match (m := .status) rfl, fun sess err mode hsess herr hmode => ?_, reservedBitsRaise .status s,
    fun w _ hbits hf => runCommand_of_failed hf (ne_statusWord_of_reservedBits hbits)⟩
  have hword : zext32 (statusBits s) = BitVec.ofNat 32 (statusBits s).toNat := (BitVec.ofNat_toNat 32 _).symm
  rw [exec_status, hword, toNat_statusBits, toNat_sessBits_of_mem hsess, toNat_codeBits_of_mem herr,
    toNat_modeBits_of_mem hmode]

end Sys2Proof.Machine
end

section
/-! SUPPORT. The order of the checks and the precise error (60_exceptions.md R161 to R164). -/

namespace Sys2Proof.Machine

open Sys2Proof.Statements

/-- The legal STATUS word decodes, so a word that is ILLEGAL gets past the refusal outside FAILED alone (R161, R163). -/
theorem sess_ne_failed_of_illegal {w : Word} {s : State} {why : Illegal} (h : ¬(s.sess = .failed ∧ w ≠ statusWord))
    (hd : decode w = .illegal why) : s.sess ≠ .failed := by
  intro hf
  obtain rfl : w = statusWord := by_contra fun hw => h ⟨hf, hw⟩
  cases hd.symm.trans (decode_of_match (m := .status) rfl)

/-- R163 step 2. -/
theorem runCommand_of_illegal {w : Word} {s : State} {why : Illegal} (h : ¬(s.sess = .failed ∧ w ≠ statusWord))
    (hd : decode w = .illegal why) : runCommand w s = .next (raised .illegalCmd s) :=
  runCommand_of_not_instr (sess_ne_failed_of_illegal h hd) fun _ hi => nomatch hd.symm.trans hi

/-- R163: past the refusal, a word that decodes runs its command. -/
theorem runCommand_of_not_refused {w : Word} {s : State} {i : Instr} (h : ¬(s.sess = .failed ∧ w ≠ statusWord))
    (hd : decode w = .instr i) : runCommand w s = exec i s := by
  rcases runCommand_cases w s with ⟨hf, hw, -⟩ | ⟨-, _, hill, -⟩ | ⟨-, j, hj, hrun⟩
  · exact absurd ⟨hf, hw⟩ h
  · cases hd.symm.trans hill
  · cases hd.symm.trans hj
    exact hrun

/-- Every way a command word ends: the refusal, an error of a session that has not failed, or a success. -/
theorem runCommand_outcome (w : Word) (s : State) :
    runCommand w s = .next (refusedIn s) ∨
    (s.sess ≠ .failed ∧ ∃ e ∈ [Code.illegalCmd, .configError, .identityMismatch, .sequenceError],
      runCommand w s = .next (raised e s)) ∨
    ∃ d u, runCommand w s = .next (success d u) := by
  rcases runCommand_cases w s with ⟨-, -, hrun⟩ | ⟨hn, _, hd, hrun⟩ | ⟨-, i, -, hrun⟩
  · exact .inl hrun
  · exact .inr (.inl ⟨sess_ne_failed_of_illegal hn hd, _, List.mem_cons_self, hrun⟩)
  · rw [hrun]
    rcases exec_cases i s with ⟨-, -, h⟩ | ⟨hs, -, e, he, h⟩ | ⟨-, d, u, h, -⟩
    · exact .inl h
    · exact .inr (.inl ⟨hs, e, he, h⟩)
    · exact .inr (.inr ⟨d, u, h⟩)

/-- Settles O8: the refusal, the decoder and the gate are passed in that order, and a command behind them meets its own
rule's checks. -/
theorem orderOfChecks : Obligations.OrderOfChecks := by
  intro w s
  refine ⟨runCommand_of_failed, fun h why => runCommand_of_illegal h,
    fun hs i hd hout => (runCommand_of_instr hs hd).trans (exec_of_not_mem_runsIn hs hout),
    fun h i => runCommand_of_not_refused h, fun hs i hd hin => ?_⟩
  rw [runCommand_of_instr hs hd]
  refine ⟨?_, ?_, ?_⟩
  · rintro name rfl hname
    exact exec_regaddr_of_noName hs hname
  · rintro odr rangeG mode rfl hbad
    obtain ⟨-, -, hraise, -⟩ := cfgloadCommand odr rangeG mode s
    exact hraise (List.mem_singleton.1 hin) hbad
  · rintro v rfl hv
    exact exec_idcheck_of_mismatch (List.mem_singleton.1 hin) hv

/-- Settles O9: the one word FAILED does not refuse decodes to STATUS, whose success writes the response alone. -/
theorem failedRefusesAllButStatus : Obligations.FailedRefusesAllButStatus := by
  intro w s hf
  refine ⟨runCommand_of_failed hf, ?_⟩
  rintro rfl
  have hrun : runCommand statusWord s = exec .status s :=
    runCommand_of_not_refused (fun h => h.2 rfl) (decode_of_match (m := .status) rfl)
  exact ⟨_, hrun.trans (exec_status s), ⟨_, rfl⟩, rfl, rfl, rfl, rfl, rfl⟩

/-- Settles O10: of the three ways a command word ends, only an error answers `rsp_ok` = 0 with a code of its own. -/
theorem raiseIsPrecise : Obligations.RaiseIsPrecise := by
  intro w s t r hrun hrsp hok hcode
  rcases runCommand_outcome w s with h | ⟨hs, e, he, h⟩ | ⟨d, u, h⟩ <;> cases hrun.symm.trans h <;> cases hrsp
  · exact absurd rfl hcode
  · exact ⟨hs, rfl, he, fun hinv => hinv.err_none_iff.2 hs⟩
  · cases hok

/-- A command's own rule has no SEQUENCE_ERROR: only the gate raises it (R164). -/
theorem ruleOf_ne_raised_sequenceError (i : Instr) (s : State) : ruleOf i s ≠ raised .sequenceError s := by
  intro h
  rcases ruleOf_cases i s with ⟨d, u, hsucceed, -⟩ | ⟨e, he, hraise, -⟩
  · have hrsp := congrArg State.rsp (hsucceed.symm.trans h)
    cases hrsp
  · have herr : e = .sequenceError := congrArg State.err (hraise.symm.trans h)
    subst herr
    simp at he

/-- Settles O11: the gate has R164's table, and a command it lets run ends by its own rule. -/
theorem sequenceGate : Obligations.SequenceGate := by
  intro i s
  refine ⟨exec_of_not_mem_runsIn, fun hin h => ?_, exec_of_failed, fun _ hm => ?_⟩
  · rw [exec_of_mem_runsIn hin] at h
    exact ruleOf_ne_raised_sequenceError i s (Host.Outcome.next.inj h)
  · cases i with
    | status => exact ⟨_, exec_status s, _, rfl⟩
    | _ => cases hm

end Sys2Proof.Machine
end

section
/-! SUPPORT. Encoding and decoding are inverse: the operand bits of a decoded word are the bits its row's `mask` leaves
free (30_encoding.md R61, R63 to R65), and the words of the assembler (R68). -/

namespace Sys2Proof

theorem encodeRow (i : Instr) : Laws.EncodeRow.Statement i := by
  cases i with
  | regaddr name => exact Laws.EncodeRow.regaddr name
  | decode raw => exact Laws.EncodeRow.decode raw
  | assemble lo hi => exact Laws.EncodeRow.assemble lo hi
  | tempconv raw => exact Laws.EncodeRow.tempconv raw
  | accconv raw => exact Laws.EncodeRow.accconv raw
  | cfgload odr rangeG mode => exact Laws.EncodeRow.cfgload odr rangeG mode
  | buildcr1 => exact Laws.EncodeRow.buildcr1
  | buildcr4 => exact Laws.EncodeRow.buildcr4
  | idcheck v => exact Laws.EncodeRow.idcheck v
  | status => exact Laws.EncodeRow.status

theorem fieldsOf_encode (i : Instr) : fieldsOf i.mnemonic (encode i) = i := by
  cases i with
  | regaddr name => exact fieldsOf_encode_regaddr name
  | decode raw => exact congrArg Instr.decode (extractLsb'_encode (by decide) rfl)
  | assemble lo hi => exact fieldsOf_encode_assemble lo hi
  | tempconv raw => exact congrArg Instr.tempconv (extractLsb'_encode (by decide) rfl)
  | accconv raw => exact congrArg Instr.accconv (extractLsb'_encode (by decide) rfl)
  | cfgload odr rangeG mode => exact fieldsOf_encode_cfgload odr rangeG mode
  | idcheck v => exact congrArg Instr.idcheck (extractLsb'_encode (by decide) rfl)
  | _ => rfl

/-- Settles O1: the word of a command meets its row's `match` under its `mask`, and its fields read the operands back. -/
theorem decodeOfEncode : Obligations.DecodeOfEncode := by
  intro i
  rw [decode_of_match (encodeRow i), fieldsOf_encode]

/-- A low field, in place. -/
theorem setWidth_extractLsb'_zero (w : Word) (n : Nat) :
    (w.extractLsb' 0 n).setWidth 32 = w &&& (BitVec.allOnes n).setWidth 32 := by
  apply BitVec.eq_of_getLsbD_eq
  intro k hk
  simp [hk, Bool.and_comm]

/-- The layouts fill the bits that their row's `mask` does not fix (R61, R64). -/
theorem operandBits_fieldsOf (m : Mnemonic) (w : Word) : operandBits (fieldsOf m w) = w &&& ~~~m.row.mask := by
  cases m with
  | regaddr => exact setWidth_extractLsb'_zero w 4
  | decode => exact setWidth_extractLsb'_zero w 16
  | assemble =>
    have hfield : w.extractLsb' 8 8 ++ w.extractLsb' 0 8 = w.extractLsb' 0 16 :=
      BitVec.extractLsb'_append_extractLsb'_eq_extractLsb' rfl
    rw [fieldsOf, operandBits_assemble, hfield]
    exact setWidth_extractLsb'_zero w 16
  | tempconv => exact setWidth_extractLsb'_zero w 16
  | accconv => exact setWidth_extractLsb'_zero w 16
  | cfgload =>
    have hhigh : w.extractLsb' 12 2 ++ w.extractLsb' 4 8 = w.extractLsb' 4 10 :=
      BitVec.extractLsb'_append_extractLsb'_eq_extractLsb' rfl
    have hfield : w.extractLsb' 4 10 ++ w.extractLsb' 0 4 = w.extractLsb' 0 14 :=
      BitVec.extractLsb'_append_extractLsb'_eq_extractLsb' rfl
    rw [fieldsOf, operandBits_cfgload, hhigh, hfield]
    exact setWidth_extractLsb'_zero w 14
  | buildcr1 => exact BitVec.and_zero.symm
  | buildcr4 => exact BitVec.and_zero.symm
  | idcheck => exact setWidth_extractLsb'_zero w 8
  | status => exact BitVec.and_zero.symm

/-- Settles O2: the row's `match` gives the bits its `mask` fixes, and the fields the others. -/
theorem encodeOfDecode : Obligations.EncodeOfDecode := by
  intro w i hd
  obtain ⟨m, -, hmatch, rfl⟩ := (decode_eq_instr_iff w i).1 hd
  calc encode (fieldsOf m w)
      = w &&& m.row.mask ||| w &&& ~~~m.row.mask := by
        rw [encode, mnemonic_fieldsOf, operandBits_fieldsOf, hmatch]
    _ = w &&& (m.row.mask ||| ~~~m.row.mask) := BitVec.and_or_distrib_left.symm
    _ = w := by rw [BitVec.or_not_self, BitVec.and_allOnes]

theorem mem_opcodeTable_iff (r : Row) : r ∈ opcodeTable ↔ ∃ m : Mnemonic, r = m.row := by
  constructor
  · simp only [opcodeTable, List.mem_cons, List.not_mem_nil, or_false]
    rintro (h | h | h | h | h | h | h | h | h | h) <;> exact ⟨_, h⟩
  · rintro ⟨m, rfl⟩
    cases m <;> simp [opcodeTable]

/-- Settles O3: a row whose `match` a word meets has the word's opcode, so the word decodes by that row. -/
theorem decoderFollowsTheOpcodeMap : Obligations.DecoderFollowsTheOpcodeMap := by
  refine fun w => ⟨decode_eq_instr_iff w, fun ⟨why, hd⟩ r hr hmatch => ?_, fun h => ?_⟩
  · obtain ⟨m, rfl⟩ := (mem_opcodeTable_iff r).1 hr
    cases hd.symm.trans (decode_of_match hmatch)
  · cases hd : decode w with
    | illegal why => exact ⟨why, rfl⟩
    | instr i =>
      obtain ⟨m, -, hmatch, -⟩ := (decode_eq_instr_iff w i).1 hd
      exact absurd hmatch (h m.row ((mem_opcodeTable_iff _).2 ⟨m, rfl⟩))

/-- Settles O5, by running the decoder on the ten words. -/
theorem specWordsDecode : Obligations.SpecWordsDecode := by
  unfold Obligations.SpecWordsDecode
  decide

end Sys2Proof

namespace Sys2Proof.Machine

/-- A shifted number and a shifted word. -/
theorem ofNat_shiftLeft (n k : Nat) : BitVec.ofNat 32 (n <<< k) = BitVec.ofNat 32 n <<< k := by
  apply BitVec.eq_of_toNat_eq
  rw [BitVec.toNat_shiftLeft, BitVec.toNat_ofNat, BitVec.toNat_ofNat, Nat.shiftLeft_eq, Nat.shiftLeft_eq,
    Nat.mod_mul_mod]

/-- A number that fits its field is the field's value in a word (R62, R68). -/
theorem setWidth_ofNat_of_fits {width n : Nat} (hwidth : width ≤ 32) (h : fits width n = true) :
    (BitVec.ofNat width n).setWidth 32 = BitVec.ofNat 32 n :=
  BitVec.setWidth_ofNat_of_le_of_lt hwidth (of_decide_eq_true h)

theorem fits_regOperandValue {r : RegOperand} (h : r.wellFormed = true) : fits 4 (regOperandValue r) = true := by
  cases r with
  | name r => cases r <;> rfl
  | number n => exact h

theorem fits_modeOperandValue {m : ModeOperand} (h : m.wellFormed = true) : fits 2 (modeOperandValue m) = true := by
  cases m with
  | name m => cases m <;> rfl
  | number n => exact h

/-- R68's word of a line with one operand. -/
theorem ofNat_or_of_fits {width n : Nat} (pattern : Nat) (hwidth : width ≤ 32) (h : fits width n = true) :
    BitVec.ofNat 32 (pattern ||| n) = BitVec.ofNat 32 pattern ||| (BitVec.ofNat width n).setWidth 32 := by
  rw [BitVec.ofNat_or, setWidth_ofNat_of_fits hwidth h]

/-- The word column of R68 is the encoding of the command the line names. -/
theorem ofNat_lineWord {l : AsmLine} (h : l.wellFormed = true) :
    BitVec.ofNat 32 (lineWord l) = encode (lineInstr l) := by
  cases l with
  | regaddr r => exact ofNat_or_of_fits 0x10000000 (by decide) (fits_regOperandValue h)
  | decode raw => exact ofNat_or_of_fits 0x20000000 (by decide) h
  | assemble lo hi =>
    obtain ⟨hlo, hhi⟩ := Bool.and_eq_true_iff.1 h
    rw [lineWord, BitVec.ofNat_or, BitVec.ofNat_or, ofNat_shiftLeft, BitVec.or_assoc,
      ← setWidth_ofNat_of_fits (by decide) hlo, ← setWidth_ofNat_of_fits (by decide) hhi]
    rfl
  | tempconv raw => exact ofNat_or_of_fits 0x40000000 (by decide) h
  | accconv raw => exact ofNat_or_of_fits 0x50000000 (by decide) h
  | cfgload odr rangeG mode =>
    obtain ⟨hfields, hmode⟩ := Bool.and_eq_true_iff.1 h
    obtain ⟨hodr, hrange⟩ := Bool.and_eq_true_iff.1 hfields
    rw [lineWord, BitVec.ofNat_or, BitVec.ofNat_or, BitVec.ofNat_or, ofNat_shiftLeft, ofNat_shiftLeft,
      BitVec.or_assoc, BitVec.or_assoc, ← BitVec.or_assoc (BitVec.ofNat 32 _ <<< 12),
      ← setWidth_ofNat_of_fits (by decide) (fits_modeOperandValue hmode),
      ← setWidth_ofNat_of_fits (by decide) hrange, ← setWidth_ofNat_of_fits (by decide) hodr]
    rfl
  | idcheck byte => exact ofNat_or_of_fits 0x90000000 (by decide) h
  | _ => rfl

theorem assembleLine_of_wellFormed {l : AsmLine} (h : l.wellFormed = true) :
    assembleLine l = some (encode (lineInstr l)) := by
  rw [assembleLine, if_pos h, ofNat_lineWord h]

/-- The number of each name (R81). -/
theorem eq_regIndex_of_mem {r : RegName} {index : Nat}
    (h : (r, index) ∈ [(RegName.whoAmI, 0), (.tempCfgReg, 1), (.ctrlReg1, 2), (.ctrlReg4, 3), (.outTempL, 4),
      (.outTempH, 5), (.outXL, 6), (.outXH, 7), (.outYL, 8), (.outYH, 9), (.outZL, 10), (.outZH, 11)]) :
    index = regIndex r := by
  have htable : (r, index) ∈ regNames.map fun r => (r, regIndex r) := h
  obtain ⟨r', -, hr⟩ := List.mem_map.1 htable
  cases hr
  rfl

/-- CFGLOAD's word as the sum of its fields (R64). -/
theorem encode_cfgload_eq_ofNat (odr : BitVec 4) (rangeG : Byte) (mode : BitVec 2) :
    encode (.cfgload odr rangeG mode) =
      BitVec.ofNat 32 (0x60000000 + 0x1000 * mode.toNat + 0x10 * rangeG.toNat + odr.toNat) := by
  rw [Nat.add_assoc, Nat.add_assoc, ← Nat.add_assoc (0x1000 * _), ← toNat_append_cfgload]
  exact encode_eq_ofNat (by decide) (operandBits_cfgload odr rangeG mode)

/-- Settles O6: a line that fits assembles to the encoding of its command, which decodes to it; a name's number is its
index or code. -/
theorem assembledLineDecodes : Obligations.AssembledLineDecodes := by
  refine ⟨fun l => ⟨fun h => ⟨_, assembleLine_of_wellFormed h, decodeOfEncode _⟩, fun h => ?_⟩,
    fun r index hr => ?_, fun m code hm odr rangeG hodr hrange => ?_⟩
  · rw [assembleLine, h]
    rfl
  · obtain rfl := eq_regIndex_of_mem hr
    exact ⟨by cases r <;> rfl, rfl⟩
  · obtain rfl := toNat_modeBits_of_mem hm
    have hfits : (AsmLine.cfgload odr rangeG (.name m)).wellFormed = true := by
      simp [AsmLine.wellFormed, ModeOperand.wellFormed, fits, hodr, hrange]
    refine ⟨?_, rfl⟩
    rw [assembleLine_of_wellFormed hfits, lineInstr, encode_cfgload_eq_ofNat, modeOperandValue,
      BitVec.ofNat_toNat, BitVec.setWidth_eq, BitVec.toNat_ofNat, BitVec.toNat_ofNat,
      Nat.mod_eq_of_lt (show rangeG < 2 ^ 8 from hrange), Nat.mod_eq_of_lt (show odr < 2 ^ 4 from hodr)]

end Sys2Proof.Machine
end

section
/-! SUPPORT. What a command word does to the state, said once with what a success writes, and what one step and one
clock edge do (60_exceptions.md R163, 20_memory.md R53, 70_reset_and_hazards.md R180, R187). -/

namespace Sys2Proof.Machine

open Sys2Proof.Statements

theorem sess_of_gate_idcheck {x : Sess} (h : gate .idcheck x = .run) : x = .unchecked := by
  cases x with
  | unchecked => rfl
  | _ => cases h

theorem sess_of_gate_cfgload {x : Sess} (h : gate .cfgload x = .run) : x = .identified := by
  cases x with
  | identified => rfl
  | _ => cases h

/-- What a success leaves before its response, with the session state in which the gate let the command run (R164). -/
theorem written_cases {i : Instr} {s u : State} (hgate : gate i.mnemonic s.sess = .run) (h : Written i s u) :
    u = s ∨
    (s.sess = .unchecked ∧ i = .idcheck 0x33 ∧ u = { s with sess := .identified }) ∨
    (s.sess = .identified ∧ ∃ odr r c fs m, i = .cfgload odr r c ∧ fsCodeRom r = some fs ∧ modeOfCode c = some m ∧
      u = { s with cfgOdr := odr, cfgFs := fs, cfgMode := m, sess := .configured }) := by
  rcases h with rfl | ⟨rfl, hu⟩ | ⟨odr, r, c, fs, m, rfl, hfs, hm, hu⟩
  · exact .inl rfl
  · exact .inr (.inl ⟨sess_of_gate_idcheck hgate, rfl, hu⟩)
  · exact .inr (.inr ⟨sess_of_gate_cfgload hgate, odr, r, c, fs, m, rfl, hfs, hm, hu⟩)

/-- Every way a command word ends, as `runCommand_outcome`, with what a success writes. -/
theorem runCommand_effect (w : Word) (s : State) :
    runCommand w s = .next (refusedIn s) ∨
    (s.sess ≠ .failed ∧ ∃ e ∈ [Code.illegalCmd, .configError, .identityMismatch, .sequenceError],
      runCommand w s = .next (raised e s)) ∨
    ∃ i d u, decode w = .instr i ∧ gate i.mnemonic s.sess = .run ∧ Written i s u ∧
      runCommand w s = .next (success d u) := by
  rcases runCommand_cases w s with ⟨-, -, hrun⟩ | ⟨hn, _, hd, hrun⟩ | ⟨-, i, hd, hrun⟩
  · exact .inl hrun
  · exact .inr (.inl ⟨sess_ne_failed_of_illegal hn hd, _, List.mem_cons_self, hrun⟩)
  · rw [hrun]
    rcases exec_cases i s with ⟨-, -, h⟩ | ⟨hs, -, e, he, h⟩ | ⟨hgate, d, u, h, hu⟩
    · exact .inl h
    · exact .inr (.inl ⟨hs, e, he, h⟩)
    · exact .inr (.inr ⟨i, d, u, hd, hgate, hu, h⟩)

/-- STATUS has one word (R161), so a word that decodes is its command's rule in FAILED too. -/
theorem runCommand_of_decode {w : Word} {i : Instr} (hd : decode w = .instr i) (s : State) :
    runCommand w s = exec i s := by
  by_cases h : s.sess = .failed ∧ w ≠ statusWord
  · have hi : i.mnemonic ≠ .status := by
      cases i with
      | status => exact absurd (encodeOfDecode w _ hd).symm h.2
      | _ => exact nofun
    rw [runCommand_of_failed h.1 h.2, exec_of_failed h.1 hi]
  · exact runCommand_of_not_refused h hd

theorem ne_none_of_mem_raisedCodes {e : Code}
    (h : e ∈ [Code.illegalCmd, .configError, .identityMismatch, .sequenceError]) :
    e ≠ .none ∧ e ≠ .sessionFailed := by
  revert h
  cases e <;> decide

/-- Settles O25: the refusal, an error and a success each answer with R21's shape. -/
theorem everyCommandIsAnswered : Obligations.EveryCommandIsAnswered := by
  intro w s
  rcases runCommand_effect w s with h | ⟨-, e, he, h⟩ | ⟨i, d, u, -, -, -, h⟩
  · exact ⟨_, _, h, rfl, rfl, rfl, nofun, fun _ => ⟨nofun, rfl⟩⟩
  · exact ⟨_, _, h, rfl, rfl, rfl, nofun, fun _ => ⟨(ne_none_of_mem_raisedCodes he).1, rfl⟩⟩
  · exact ⟨_, _, h, rfl, rfl, rfl, fun _ => rfl, nofun⟩

theorem step_of_reset {s : State} {rest : List HostInput} (h : s.host = .reset :: rest) :
    step s = .next (applyReset { s with host := rest }) := by
  rw [step, transact, h]

theorem step_of_waiting {s : State} (hhost : s.host = []) (hflight : s.inFlight = none) : step s = .next s := by
  rw [step, transact, hhost, hflight]

theorem step_of_command {s : State} {w : Word} {rest : List HostInput} (hhost : s.host = .command w :: rest)
    (hflight : s.inFlight = none) : step s = runCommand w (accept w { s with host := rest }) := by
  rw [step, transact, hhost, hflight]

theorem step_of_inFlight {s : State} {f : InFlight} (hhost : ∀ rest, s.host ≠ .reset :: rest)
    (hflight : s.inFlight = some f) : step s = runCommand f.word s := by
  rw [step, transact, hflight]
  cases h : s.host with
  | nil => rfl
  | cons input rest =>
    cases input with
    | command w => rfl
    | reset => exact absurd h (hhost rest)

/-- Also for a state that is `s` with another handshake: its five fields are those of `s` by unfolding. -/
theorem SameArch.refl (s : State) : SameArch s s := ⟨rfl, rfl, rfl, rfl, rfl⟩

/-- A step is a reset, a wait, or a command word run over the same architectural state. -/
theorem step_cases (s : State) :
    (∃ rest, s.host = .reset :: rest ∧ step s = .next (applyReset { s with host := rest })) ∨
    step s = .next s ∨ ∃ w u, SameArch s u ∧ step s = runCommand w u := by
  cases hhost : s.host with
  | nil =>
    cases hflight : s.inFlight with
    | none => exact .inr (.inl (step_of_waiting hhost hflight))
    | some f => exact .inr (.inr ⟨_, s, .refl s, step_of_inFlight (by simp [hhost]) hflight⟩)
  | cons input rest =>
    cases input with
    | reset => exact .inl ⟨rest, rfl, step_of_reset hhost⟩
    | command w =>
      cases hflight : s.inFlight with
      | none => exact .inr (.inr ⟨w, accept w { s with host := rest }, .refl s, step_of_command hhost hflight⟩)
      | some f => exact .inr (.inr ⟨_, s, .refl s, step_of_inFlight (by simp [hhost]) hflight⟩)

/-- Settles O7: the word is accepted and run, and a word that decodes is its command in every session state. -/
theorem stepRunsTheDecodedCommand : Obligations.StepRunsTheDecodedCommand := by
  intro s w rest i hflight hhost hd
  rw [step_of_command hhost hflight, runCommand_of_decode hd]
  rfl

/-- Settles O23, by the step of a pending reset. -/
theorem stepResets : Obligations.StepResets := fun _ _ h => step_of_reset h

/-- Settles O24, by the step with nothing to do. -/
theorem stepWaitsForACommand : Obligations.StepWaitsForACommand := fun _ => step_of_waiting

/-- Settles O22: the reset values are those of R33. -/
theorem resetState : Obligations.ResetState := ⟨rfl, rfl, rfl, rfl, rfl, rfl, rfl, rfl⟩

theorem clockEdge_of_reset {p : Pins} (h : p.rstN = false) (s : State) :
    clockEdge p s = .next { applyReset s with cmdReady := false } := by
  simp [clockEdge, h]

theorem clockEdge_of_lastEdge {p : Pins} {s : State} {f : InFlight} (hp : p.rstN = true) (hf : s.inFlight = some f)
    (hlast : f.edges ≤ 1) : clockEdge p s = runCommand f.word s := by
  simp [clockEdge, hp, hf, hlast]

theorem clockEdge_of_inFlight {p : Pins} {s : State} {f : InFlight} (hp : p.rstN = true) (hf : s.inFlight = some f)
    (hmore : 1 < f.edges) : clockEdge p s = .next { s with inFlight := some ⟨f.word, f.edges - 1⟩ } := by
  simp [clockEdge, hp, hf, Nat.not_le.2 hmore]

/-- The first edge after reset (R180). -/
theorem clockEdge_of_not_ready {p : Pins} {s : State} (hp : p.rstN = true) (hf : s.inFlight = none)
    (hr : s.cmdReady = false) : clockEdge p s = .next { s with cmdReady := true } := by
  simp [clockEdge, hp, hf, hr]

theorem clockEdge_of_valid {p : Pins} {s : State} (hp : p.rstN = true) (hf : s.inFlight = none)
    (hr : s.cmdReady = true) (hv : p.cmdValid = true) : clockEdge p s = .next (accept p.cmd s) := by
  simp [clockEdge, hp, hf, hr, hv]

theorem clockEdge_of_not_valid {p : Pins} {s : State} (hp : p.rstN = true) (hf : s.inFlight = none)
    (hr : s.cmdReady = true) (hv : p.cmdValid = false) : clockEdge p s = .next s := by
  simp [clockEdge, hp, hf, hr, hv]

/-- Settles O47: the edge with `rst_n` = 0 resets, and leaves a state that is not ready for the next one. -/
theorem resetEdges : Obligations.ResetEdges :=
  fun _ _ s hp hq => ⟨_, clockEdge_of_reset hp s, rfl, clockEdge_of_not_ready hq rfl rfl⟩

/-- Settles O48: an edge of a ready block accepts what is presented, or does nothing. -/
theorem acceptanceEdge : Obligations.AcceptanceEdge :=
  fun _ _ hp hr hf => ⟨clockEdge_of_valid hp hf hr, clockEdge_of_not_valid hp hf hr⟩

end Sys2Proof.Machine
end

section
/-! SUPPORT. The block's invariant over command words, resets, steps and clock edges (10_state.md R21, R22, R25,
70_reset_and_hazards.md R180, R187). -/

namespace Sys2Proof.Machine

open Sys2Proof.Statements

/-- The session's rules speak of the five fields alone. -/
theorem SessionInv.of_sameArch {s t : State} (h : SessionInv s) (hst : SameArch s t) : SessionInv t := by
  obtain ⟨hsess, herr, hodr, hfs, hmode⟩ := hst
  obtain ⟨hnone, hstored, hunconfigured⟩ := h
  constructor
  · rwa [hsess, herr]
  · rwa [herr]
  · rwa [hsess, hodr, hfs, hmode]

theorem sessionInv_raised {e : Code} (s : State)
    (he : e ∈ [Code.illegalCmd, .configError, .identityMismatch, .sequenceError]) : SessionInv (raised e s) := by
  obtain ⟨hnone, hstored⟩ := ne_none_of_mem_raisedCodes he
  exact ⟨⟨fun h => absurd h hnone, fun h => absurd rfl h⟩, hstored, by simp [raised]⟩

/-- IDCHECK leaves the reset configuration alone, and CONFIGURED allows any. -/
theorem sessionInv_written {i : Instr} {s u : State} (h : SessionInv s) (hgate : gate i.mnemonic s.sess = .run)
    (hu : Written i s u) : SessionInv u := by
  rcases written_cases hgate hu with rfl | ⟨hs, -, rfl⟩ | ⟨hs, odr, r, c, fs, m, -, -, -, rfl⟩
  · exact h
  · have herr : s.err = .none := h.err_none_iff.2 (by simp [hs])
    exact ⟨by simp [herr], h.err_stored, fun _ => h.unconfigured (.inl hs)⟩
  · have herr : s.err = .none := h.err_none_iff.2 (by simp [hs])
    exact ⟨by simp [herr], h.err_stored, by simp⟩

theorem sessionInv_runCommand {w : Word} {s t : State} (h : SessionInv s) (hrun : runCommand w s = .next t) :
    SessionInv t := by
  rcases runCommand_effect w s with he | ⟨-, e, hmem, he⟩ | ⟨i, d, u, -, hgate, hu, he⟩ <;>
    cases hrun.symm.trans he
  · exact h.of_sameArch (.refl s)
  · exact sessionInv_raised s hmem
  · exact (sessionInv_written h hgate hu).of_sameArch (.refl u)

theorem portInv_runCommand {w : Word} {s t : State} (hrun : runCommand w s = .next t) : PortInv t := by
  obtain ⟨t', r, hrun', hrsp, hready, hflight, hok, herr⟩ := everyCommandIsAnswered w s
  cases hrun.symm.trans hrun'
  refine ⟨by simp [hflight], fun _ => hready, fun r' hr' => ?_⟩
  cases hrsp.symm.trans hr'
  exact ⟨hok, herr⟩

theorem blockInv_runCommand {w : Word} {s t : State} (h : SessionInv s) (hrun : runCommand w s = .next t) :
    BlockInv t :=
  ⟨sessionInv_runCommand h hrun, portInv_runCommand hrun⟩

/-- Ports with no response and nothing in flight keep their rules, ready or not. -/
theorem portInv_of_none {s : State} (hrsp : s.rsp = none) (hflight : s.inFlight = none) : PortInv s :=
  ⟨by simp [hflight], by simp [hrsp], by simp [hrsp]⟩

theorem sessionInv_applyReset (s : State) : SessionInv (applyReset s) :=
  ⟨by simp, by simp, fun _ => ⟨rfl, rfl, rfl⟩⟩

theorem blockInv_applyReset (s : State) : BlockInv (applyReset s) :=
  ⟨sessionInv_applyReset s, portInv_of_none rfl rfl⟩

/-- Settles O26: a reset gives the state after reset. -/
theorem resetSatisfiesInvariant : Obligations.ResetSatisfiesInvariant := blockInv_applyReset State.reset

/-- Settles O27: a step is a reset, a wait or a command word, and each keeps the invariant. -/
theorem stepKeepsInvariant : Obligations.StepKeepsInvariant := by
  intro s t hinv hstep
  rcases step_cases s with ⟨rest, -, h⟩ | h | ⟨w, u, hu, h⟩
  · cases hstep.symm.trans h
    exact blockInv_applyReset _
  · cases hstep.symm.trans h
    exact hinv
  · exact blockInv_runCommand (hinv.session.of_sameArch hu) (h.symm.trans hstep)

/-- Settles O28: an edge resets, answers, counts down, becomes ready, accepts or waits. -/
theorem clockEdgeKeepsInvariant : Obligations.ClockEdgeKeepsInvariant := by
  intro p s t hinv hedge
  cases hp : p.rstN with
  | false =>
    cases hedge.symm.trans (clockEdge_of_reset hp s)
    exact ⟨(sessionInv_applyReset s).of_sameArch (.refl _), portInv_of_none rfl rfl⟩
  | true =>
    cases hf : s.inFlight with
    | some f =>
      by_cases hlast : f.edges ≤ 1
      · exact blockInv_runCommand hinv.session ((clockEdge_of_lastEdge hp hf hlast).symm.trans hedge)
      · cases hedge.symm.trans (clockEdge_of_inFlight hp hf (Nat.lt_of_not_le hlast))
        have hbusy := hinv.ports.busy (by simp [hf])
        exact ⟨hinv.session.of_sameArch (.refl s), fun _ => hbusy, hinv.ports.answered_ready,
          hinv.ports.shape⟩
    | none =>
      cases hr : s.cmdReady with
      | false =>
        cases hedge.symm.trans (clockEdge_of_not_ready hp hf hr)
        exact ⟨hinv.session.of_sameArch (.refl s), by simp [hf], fun _ => rfl, hinv.ports.shape⟩
      | true =>
        cases hv : p.cmdValid with
        | true =>
          cases hedge.symm.trans (clockEdge_of_valid hp hf hr hv)
          exact ⟨hinv.session.of_sameArch (.refl s), fun _ => rfl, by simp, by simp⟩
        | false =>
          cases hedge.symm.trans (clockEdge_of_not_valid hp hf hr hv)
          exact hinv

end Sys2Proof.Machine
end

section
/-! SUPPORT. What a command word can write, and what it cannot (10_state.md R20, R22, R34, 60_exceptions.md R165). -/

namespace Sys2Proof.Machine

open Sys2Proof.Statements

/-- The FS code of a range (42_config_encoder.md R132). -/
theorem toNat_of_fsCodeRom {r : Byte} {fs : BitVec 2} (h : fsCodeRom r = some fs) : r.toNat = 2 ^ (fs.toNat + 1) := by
  unfold fsCodeRom at h
  split at h
  case h_5 => cases h
  all_goals cases h; assumption

theorem modeBits_of_modeOfCode {c : BitVec 2} {m : Mode} (h : modeOfCode c = some m) : modeBits m = c := by
  revert c
  cases m <;> decide

/-- Settles O29: the refusal, an error and IDCHECK keep the configuration, and CFGLOAD's rule latches its operands. -/
theorem configWrittenOnlyByCfgload : Obligations.ConfigWrittenOnlyByCfgload := by
  intro w s t hrun hchanged
  rcases runCommand_effect w s with h | ⟨-, e, -, h⟩ | ⟨i, d, u, hd, hgate, hu, h⟩ <;> cases hrun.symm.trans h
  · exact absurd ⟨rfl, rfl, rfl⟩ hchanged
  · exact absurd ⟨rfl, rfl, rfl⟩ hchanged
  · rcases written_cases hgate hu with rfl | ⟨-, -, rfl⟩ | ⟨hs, odr, r, c, fs, m, rfl, hfs, hm, rfl⟩
    · exact absurd ⟨rfl, rfl, rfl⟩ hchanged
    · exact absurd ⟨rfl, rfl, rfl⟩ hchanged
    · exact ⟨hs, rfl, odr, r, c, hd, rfl, modeBits_of_modeOfCode hm, toNat_of_fsCodeRom hfs⟩

/-- Settles O32: of the ways a command word ends, an error, IDCHECK's success and CFGLOAD's change the session state. -/
theorem sessionMovesForward : Obligations.SessionMovesForward := by
  intro w s t hrun hchanged
  rcases runCommand_effect w s with h | ⟨hs, e, he, h⟩ | ⟨i, d, u, hd, hgate, hu, h⟩ <;> cases hrun.symm.trans h
  · exact absurd rfl hchanged
  · exact .inr (.inr ⟨hs, rfl, (ne_none_of_mem_raisedCodes he).1⟩)
  · rcases written_cases hgate hu with rfl | ⟨hs, rfl, rfl⟩ | ⟨hs, odr, r, c, fs, m, rfl, -, -, rfl⟩
    · exact absurd rfl hchanged
    · exact .inl ⟨hs, rfl, hd⟩
    · exact .inr (.inl ⟨hs, rfl, odr, r, c, hd⟩)

/-- In FAILED the refusal and STATUS write no state (R161, R165). -/
theorem sameArch_runCommand_of_failed {w : Word} {s t : State} (hs : s.sess = .failed)
    (hrun : runCommand w s = .next t) : SameArch s t := by
  obtain ⟨hrefused, hstatus⟩ := failedRefusesAllButStatus w s hs
  by_cases hw : w = statusWord
  · obtain ⟨t', hrun', -, harch⟩ := hstatus hw
    cases hrun.symm.trans hrun'
    exact harch
  · cases hrun.symm.trans (hrefused hw)
    exact .refl s

theorem SameArch.trans {s t u : State} (hst : SameArch s t) (htu : SameArch t u) : SameArch s u := by
  obtain ⟨hsess, herr, hodr, hfs, hmode⟩ := hst
  obtain ⟨hsess', herr', hodr', hfs', hmode'⟩ := htu
  exact ⟨hsess'.trans hsess, herr'.trans herr, hodr'.trans hodr, hfs'.trans hfs, hmode'.trans hmode⟩

/-- Settles O31: a step that is no reset waits or runs a command word. -/
theorem onlyResetLeavesFailed : Obligations.OnlyResetLeavesFailed := by
  intro s t hs hhost hstep
  rcases step_cases s with ⟨rest, hreset, -⟩ | h | ⟨w, u, hu, h⟩
  · exact absurd hreset (hhost rest)
  · cases hstep.symm.trans h
    exact .refl s
  · exact hu.trans (sameArch_runCommand_of_failed (hu.1.trans hs) (h.symm.trans hstep))

theorem not_succeeded_raise (e : Code) (s : State) : ¬Succeeded (raise e s) := nofun

theorem not_succeeded_refuse (s : State) : ¬Succeeded (refuse s) := nofun

/-- Settles O33: the refusal and an error keep the configuration and are no success; a success has written what its
command may. -/
theorem accessByCommand : Obligations.AccessByCommand := by
  intro i s t hexec
  rcases exec_cases i s with ⟨-, hi, h⟩ | ⟨-, hi, e, -, h⟩ | ⟨-, d, u, h, hu⟩ <;> cases hexec.symm.trans h
  · exact ⟨⟨rfl, rfl⟩, fun hsucc => absurd hsucc (not_succeeded_refuse s), fun _ => ⟨rfl, rfl, rfl⟩,
      fun _ hstatus => absurd (hstatus ▸ rfl) hi⟩
  · exact ⟨⟨rfl, rfl⟩, fun hsucc => absurd hsucc (not_succeeded_raise e s), fun _ => ⟨rfl, rfl, rfl⟩,
      fun _ hstatus => absurd (hstatus ▸ rfl) hi⟩
  · have hsucc : Succeeded (succeed d u) := ⟨d, rfl⟩
    rcases hu with rfl | ⟨rfl, rfl⟩ | ⟨odr, r, c, fs, m, rfl, -, -, rfl⟩
    · exact ⟨⟨rfl, rfl⟩, fun _ => ⟨rfl, fun _ => ⟨rfl, rfl, rfl⟩, fun _ _ => rfl⟩, absurd hsucc, fun _ _ => hsucc⟩
    · exact ⟨⟨rfl, rfl⟩, fun _ => ⟨rfl, fun _ => ⟨rfl, rfl, rfl⟩, fun _ hid => absurd rfl hid⟩, absurd hsucc,
        fun _ _ => hsucc⟩
    · exact ⟨⟨rfl, rfl⟩, fun _ => ⟨rfl, fun hcfg => absurd rfl hcfg, fun hcfg => absurd rfl hcfg⟩, absurd hsucc,
        fun _ _ => hsucc⟩

end Sys2Proof.Machine
end

section
/-! SUPPORT. Which commands read the configuration: outside CONFIGURED none but STATUS (10_state.md R22, R33), and of the
conversions ACCCONV alone (41_conversion.md R116). -/

namespace Sys2Proof.Machine

open Sys2Proof.Statements

/-- `s` with another configuration. -/
def withConfig (odr : BitVec 4) (fs : BitVec 2) (m : Mode) (s : State) : State :=
  { s with cfgOdr := odr, cfgFs := fs, cfgMode := m }

/-- Outside CONFIGURED a rule does not read the configuration: it keeps whatever it finds there, or writes all of it and
ends in CONFIGURED. -/
def ConfigBlind (rule : State → State) : Prop :=
  ∀ (s : State) (odr : BitVec 4) (fs : BitVec 2) (m : Mode), s.sess ≠ .configured →
    ((rule s).sess ≠ .configured ∧ SameConfig s (rule s) ∧
      rule (withConfig odr fs m s) = withConfig odr fs m (rule s)) ∨
    ((rule s).sess = .configured ∧ rule (withConfig odr fs m s) = rule s)

theorem configBlind_refuse : ConfigBlind refuse := fun _ _ _ _ hs => .inl ⟨hs, ⟨rfl, rfl, rfl⟩, rfl⟩

theorem configBlind_raise (e : Code) : ConfigBlind (raise e) := fun _ _ _ _ _ => .inl ⟨nofun, ⟨rfl, rfl, rfl⟩, rfl⟩

theorem configBlind_succeed (d : Word) : ConfigBlind (succeed d) :=
  fun _ _ _ _ hs => .inl ⟨hs, ⟨rfl, rfl, rfl⟩, rfl⟩

theorem configBlind_regaddrRule (name : BitVec 4) : ConfigBlind (regaddrRule name) := by
  unfold regaddrRule
  split
  · exact configBlind_succeed _
  · exact configBlind_raise _

theorem configBlind_idcheckRule (v : Byte) : ConfigBlind (idcheckRule v) := by
  unfold idcheckRule
  split
  · exact fun _ _ _ _ _ => .inl ⟨nofun, ⟨rfl, rfl, rfl⟩, rfl⟩
  · exact configBlind_raise _

theorem configBlind_cfgloadRule (odr : BitVec 4) (r : Byte) (c : BitVec 2) : ConfigBlind (cfgloadRule odr r c) := by
  unfold cfgloadRule
  split
  · exact configBlind_raise _
  · split
    · exact configBlind_raise _
    · exact fun _ _ _ _ _ => .inr ⟨rfl, rfl⟩

/-- The gate reads the session state alone, so a rule that reads the configuration is only let run in CONFIGURED. -/
theorem configBlind_gated {m : Mnemonic} {rule : State → State}
    (h : ConfigBlind rule ∨ ∀ x, gate m x = .run → x = .configured) : ConfigBlind (gated m rule) := by
  intro s odr fs md hs
  have hsess : (withConfig odr fs md s).sess = s.sess := rfl
  rcases gated_cases m rule s with ⟨hgate, hg⟩ | ⟨hgate, hg⟩ | ⟨hgate, hg⟩ <;> rw [hg]
  · rw [gated_run (hsess ▸ hgate)]
    exact (h.resolve_right fun hconf => hs (hconf _ hgate)) s odr fs md hs
  · rw [gated_outOfSequence (hsess ▸ hgate)]
    exact configBlind_raise _ s odr fs md hs
  · rw [gated_refused (hsess ▸ hgate)]
    exact configBlind_refuse s odr fs md hs

/-- R164: the commands that read the latched configuration run in CONFIGURED alone. -/
theorem sess_of_gate_configReader {m : Mnemonic} (hm : m ∈ [Mnemonic.accconv, .buildcr1, .buildcr4]) (x : Sess)
    (h : gate m x = .run) : x = .configured := by
  revert hm h
  cases m <;> cases x <;> decide

theorem configBlind_exec {i : Instr} (hi : i.mnemonic ≠ .status) : ConfigBlind (gated i.mnemonic (ruleOf i)) := by
  apply configBlind_gated
  cases i with
  | regaddr name => exact .inl (configBlind_regaddrRule name)
  | decode raw => exact .inl (configBlind_succeed _)
  | assemble lo hi => exact .inl (configBlind_succeed _)
  | tempconv raw => exact .inl (configBlind_succeed _)
  | accconv raw => exact .inr (sess_of_gate_configReader (m := .accconv) (by decide))
  | cfgload odr r c => exact .inl (configBlind_cfgloadRule odr r c)
  | buildcr1 => exact .inr (sess_of_gate_configReader (by decide))
  | buildcr4 => exact .inr (sess_of_gate_configReader (by decide))
  | idcheck v => exact .inl (configBlind_idcheckRule v)
  | status => exact absurd rfl hi

/-- Settles O30: a command is its rule behind the gate, which is blind to the configuration outside CONFIGURED. -/
theorem configReadOnlyWhenConfigured : Obligations.ConfigReadOnlyWhenConfigured := by
  intro i s odr fs m hi hs
  refine ⟨_, _, exec_eq_gated i s, exec_eq_gated i (withConfig odr fs m s), ?_⟩
  rcases configBlind_exec hi s odr fs m hs with ⟨hsess, hsame, hrule⟩ | ⟨hsess, hrule⟩ <;> rw [hrule]
  · exact ⟨rfl, rfl, rfl, fun h => absurd h hsess, fun _ => ⟨hsame, rfl, rfl, rfl⟩⟩
  · exact ⟨rfl, rfl, rfl, fun _ => ⟨rfl, rfl, rfl⟩, absurd hsess⟩

/-- A conversion's rule answers a word made of the operands and, for ACCCONV alone, the FS code and the mode (R116). -/
theorem ruleOf_conversion {i : Instr} (hi : IsConversion i) :
    ∃ word : BitVec 2 → Mode → Word, (∀ s, ruleOf i s = succeed (word s.cfgFs s.cfgMode) s) ∧
      (i.mnemonic ≠ .accconv → ∀ fs m fs' m', word fs m = word fs' m') := by
  cases i with
  | decode raw => exact ⟨fun _ _ => _, fun _ => rfl, fun _ _ _ _ _ => rfl⟩
  | assemble lo hi => exact ⟨fun _ _ => _, fun _ => rfl, fun _ _ _ _ _ => rfl⟩
  | tempconv raw => exact ⟨fun _ _ => _, fun _ => rfl, fun _ _ _ _ _ => rfl⟩
  | accconv raw => exact ⟨fun fs m => wrap32 (accFx scaleC fs m raw), fun _ => rfl, fun h => absurd rfl h⟩
  | _ => simp [IsConversion, Instr.mnemonic] at hi

/-- Only a rule that the gate lets run succeeds. -/
theorem eq_ruleOf_of_succeeded {i : Instr} {s t : State} (hexec : exec i s = .next t) (ht : Succeeded t) :
    gate i.mnemonic s.sess = .run ∧ t = ruleOf i s := by
  obtain rfl := Host.Outcome.next.inj ((exec_eq_gated i s).symm.trans hexec)
  rcases gated_cases i.mnemonic (ruleOf i) s with ⟨hgate, h⟩ | ⟨-, h⟩ | ⟨-, h⟩
  · exact ⟨hgate, h⟩
  · exact absurd (h ▸ ht) (not_succeeded_raise _ s)
  · exact absurd (h ▸ ht) (not_succeeded_refuse s)

/-- Settles O34: a conversion's success changes nothing that its rule or the gate reads. -/
theorem conversionsRepeat : Obligations.ConversionsRepeat := by
  intro i s t hi hexec ht
  obtain ⟨word, hrule, -⟩ := ruleOf_conversion hi
  obtain ⟨hgate, rfl⟩ := eq_ruleOf_of_succeeded hexec ht
  rw [hrule]
  refine ⟨.refl s, ?_⟩
  rw [exec_eq_gated, gated_run (by exact hgate), hrule]
  rfl

/-- Settles O35: two successes of one conversion answer the same word. -/
theorem conversionsDependOnlyOnConfig : Obligations.ConversionsDependOnlyOnConfig := by
  intro i s t s' t' hi hs ht hs' ht' hconfig
  obtain ⟨word, hrule, hconst⟩ := ruleOf_conversion hi
  obtain ⟨-, rfl⟩ := eq_ruleOf_of_succeeded hs hs'
  obtain ⟨-, rfl⟩ := eq_ruleOf_of_succeeded ht ht'
  have hword : word s.cfgFs s.cfgMode = word t.cfgFs t.cfgMode := by
    by_cases hacc : i.mnemonic = .accconv
    · obtain ⟨hfs, hmode⟩ := hconfig hacc
      rw [hfs, hmode]
    · exact hconst hacc ..
  rw [hrule, hrule, succeed_rsp, succeed_rsp, hword]

theorem sessBits_injective : Function.Injective Sess.bits := by
  intro x y
  cases x <;> cases y <;> decide

theorem codeBits_injective : Function.Injective Code.bits := by
  intro x y
  cases x <;> cases y <;> decide

theorem modeBits_injective : Function.Injective modeBits := by
  intro x y
  cases x <;> cases y <;> decide

/-- The fields of the STATUS word are disjoint, so it fixes each of them (43_identity_status.md R152). -/
theorem sameArch_of_statusBits {s t : State} (h : statusBits s = statusBits t) : SameArch s t := by
  have hsum := congrArg BitVec.toNat h
  rw [toNat_statusBits, toNat_statusBits] at hsum
  have hs := And.intro s.err.bits.isLt (And.intro s.sess.bits.isLt (And.intro s.cfgOdr.isLt s.cfgFs.isLt))
  have ht := And.intro t.err.bits.isLt (And.intro t.sess.bits.isLt (And.intro t.cfgOdr.isLt t.cfgFs.isLt))
  refine ⟨sessBits_injective (BitVec.eq_of_toNat_eq ?_), codeBits_injective (BitVec.eq_of_toNat_eq ?_),
    BitVec.eq_of_toNat_eq ?_, BitVec.eq_of_toNat_eq ?_, modeBits_injective (BitVec.eq_of_toNat_eq ?_)⟩ <;> omega

/-- `zext_32` loses nothing of a field (00_scope.md R9). -/
theorem setWidth_zext32 {n : Nat} (hn : n ≤ 32) (v : BitVec n) : (zext32 v).setWidth n = v := by
  rw [zext32, BitVec.setWidth_setWidth_of_le v hn, BitVec.setWidth_eq]

/-- Settles O36: STATUS answers its sixteen bits zero-extended, so equal responses have equal bits. -/
theorem statusShowsTheWholeState : Obligations.StatusShowsTheWholeState := by
  intro s t s' t' hs ht hrsp
  cases hs.symm.trans (exec_status s)
  cases ht.symm.trans (exec_status t)
  have hword : zext32 (statusBits s) = zext32 (statusBits t) := congrArg Response.data (Option.some.inj hrsp)
  apply sameArch_of_statusBits
  calc statusBits s
      = (zext32 (statusBits s)).setWidth 16 := (setWidth_zext32 (by decide) _).symm
    _ = (zext32 (statusBits t)).setWidth 16 := by rw [hword]
    _ = statusBits t := setWidth_zext32 (by decide) _

end Sys2Proof.Machine
end

section
/-! SUPPORT. The scale table and the samples it converts (00_scope.md R7, 41_conversion.md R112, R114). -/

namespace Sys2Proof.Machine

open Sys2Proof.Statements

/-- Settles O43: the block's table is that of its fill. -/
theorem scaleTableIsWellFormed : Obligations.ScaleTableIsWellFormed :=
  ⟨scaleOf_wellFormed Config.scaleFill, scaleOf_wellFormed⟩

/-- A well-formed table's entries are 1 plus a number below the modulus of log 5. -/
theorem scale_bounds {table : BitVec 2 → Mode → Nat} (h : ScaleWellFormed table) (fs : BitVec 2) (m : Mode) :
    1 ≤ table fs m ∧ table fs m ≤ 65536 / countGain m := by
  obtain ⟨hlow, hhigh⟩ := h.2 fs m
  exact ⟨Nat.pos_of_mul_pos_right hlow, (Nat.le_div_iff_mul_le (countGain_pos m)).2 hhigh⟩

/-- Settles O44: the fill is the table less 1, which the modulus leaves alone. -/
theorem everyWellFormedScaleTableIsAllowed : Obligations.EveryWellFormedScaleTableIsAllowed := by
  intro table h
  refine ⟨fun fs m => table fs m - 1, funext fun fs => funext fun m => ?_⟩
  rw [scaleOf]
  split
  next hfixed => rw [hfixed.1, hfixed.2, h.1]
  next =>
    obtain ⟨hlow, hhigh⟩ := scale_bounds h fs m
    rw [Nat.mod_eq_of_lt (by omega)]
    omega

/-- Settles O42: the scale entry and `k` are not 0, so neither is their product with a nonzero sample, and `wrap_32` is
exact on it. -/
theorem nonzeroSampleConvertsToNonzero : Obligations.NonzeroSampleConvertsToNonzero := by
  intro raw s hs hraw
  refine ⟨_, exec_accconv hs, fun hzero => ?_⟩
  have hwf : ScaleWellFormed scaleC := scaleOf_wellFormed _
  have hprod : raw.toInt * scaleC s.cfgFs s.cfgMode * countGain s.cfgMode = 0 := by
    rw [← accFx_eq, ← toInt_wrap32_accFx hwf, hzero]
    rfl
  have hscale := (scale_bounds hwf s.cfgFs s.cfgMode).1
  have hgain := countGain_pos s.cfgMode
  have hsample : raw.toInt = 0 := by
    rcases Int.mul_eq_zero.1 hprod with h | h
    · exact (Int.mul_eq_zero.1 h).resolve_right (by omega)
    · omega
  exact hraw (BitVec.toInt_inj.1 hsample)

/-- Settles O41: the entry at (2 g, normal) is 391 and `k` is 4 there. -/
theorem accelerationOfTheSourceVector : Obligations.AccelerationOfTheSourceVector := by
  intro s hs hfs hmode
  refine ⟨?_, ?_, by norm_num, by norm_num⟩ <;> rw [exec_accconv hs, hfs, hmode] <;> rfl

end Sys2Proof.Machine
end

section
/-! SUPPORT. Runs of clock edges: the wait for a response, the response, and the ports (70_reset_and_hazards.md R184,
R187, 10_state.md R32). -/

namespace Sys2Proof.Machine

open Sys2Proof.Statements

theorem clockRun_cons {p : Pins} {s t : State} (h : clockEdge p s = .next t) (ps : List Pins) :
    clockRun (p :: ps) s = clockRun ps t := by
  rw [clockRun, h]

/-- Fewer edges than the command in flight needs only count down. -/
theorem clockRun_of_lt {w : Word} {ps : List Pins} (hps : ∀ p ∈ ps, p.rstN = true) :
    ∀ {n : Nat} {s : State}, s.inFlight = some ⟨w, n⟩ → ps.length < n →
      clockRun ps s = .next { s with inFlight := some ⟨w, n - ps.length⟩ } := by
  induction ps with
  | nil =>
    intro n s hs _
    rw [List.length_nil, Nat.sub_zero, ← hs]
    rfl
  | cons p ps ih =>
    intro n s hs hn
    rw [List.length_cons] at hn
    obtain ⟨hp, hrest⟩ := List.forall_mem_cons.1 hps
    rw [clockRun_cons (clockEdge_of_inFlight hp hs (by simp only; omega)), ih hrest rfl (by simp only; omega),
      List.length_cons, Nat.sub_sub, Nat.add_comm 1]

theorem clockRun_singleton (p : Pins) (s : State) : clockRun [p] s = clockEdge p s := by
  rw [clockRun]
  cases clockEdge p s <;> rfl

/-- At its last edge the command in flight is run, in the state it waited in. -/
theorem clockRun_of_length_eq {w : Word} {ps : List Pins} (hps : ∀ p ∈ ps, p.rstN = true) :
    ∀ {n : Nat} {s : State}, s.inFlight = some ⟨w, n + 1⟩ → ps.length = n + 1 →
      clockRun ps s = runCommand w s := by
  induction ps with
  | nil => exact fun _ hn => nomatch hn
  | cons p ps ih =>
    intro n s hs hn
    obtain ⟨hp, hrest⟩ := List.forall_mem_cons.1 hps
    cases n with
    | zero =>
      rw [List.length_eq_zero_iff.1 (Nat.succ.inj hn), clockRun_singleton, clockEdge_of_lastEdge hp hs le_rfl]
    | succ n =>
      have hwait : clockEdge p s = .next { s with inFlight := some ⟨w, n + 1⟩ } :=
        clockEdge_of_inFlight hp hs (Nat.succ_lt_succ n.succ_pos)
      rw [clockRun_cons hwait, ih hrest rfl (Nat.succ.inj hn), runCommand_inFlight]

/-- A command presented to a ready block is in flight for the edges that follow. -/
theorem clockRun_of_presented {s : State} (hf : s.inFlight = none) (hr : s.cmdReady = true) (w : Word)
    (ps : List Pins) : clockRun (⟨true, true, w⟩ :: ps) s = clockRun ps (accept w s) :=
  clockRun_cons (clockEdge_of_valid rfl hf hr rfl) ps

theorem clockRun_accept_of_lt (w : Word) (s : State) {ps : List Pins} (hps : ∀ p ∈ ps, p.rstN = true)
    (hn : ps.length < Config.cmdLatency) :
    clockRun ps (accept w s) =
      .next { accept w s with inFlight := some ⟨w, Config.cmdLatency - ps.length⟩ } :=
  clockRun_of_lt hps rfl hn

theorem clockRun_accept_of_length_eq (w : Word) (s : State) {ps : List Pins} (hps : ∀ p ∈ ps, p.rstN = true)
    (hn : ps.length = Config.cmdLatency) : clockRun ps (accept w s) = runCommand w (accept w s) :=
  clockRun_of_length_eq hps (n := Config.latencyBeyondOne) rfl hn

/-- Settles O49: the edges after the acceptance count down to the run of the command, which is also what the step with
that command issued does. -/
theorem handshakeRefinesStep : Obligations.HandshakeRefinesStep := by
  intro s w ps hf hr hps
  rw [clockRun_of_presented hf hr]
  refine ⟨fun hn => ?_, fun hn => ⟨_, clockRun_accept_of_lt w s hps hn, rfl, rfl, .refl s⟩⟩
  rw [clockRun_accept_of_length_eq w s hps hn, step_of_command (s := { s with host := .command w :: s.host }) rfl hf]

/-- Settles O50: at any distance the outcome is the run of the command in the state it waited in. -/
theorem latencyDoesNotMatter : Obligations.LatencyDoesNotMatter := by
  intro s w m n ps qs hps hqs hm hn
  rw [clockRun_of_length_eq hps rfl hm, clockRun_of_length_eq hqs rfl hn]
  exact (runCommand_inFlight w s _).trans (runCommand_inFlight w s _).symm

/-- Edges at which no command is presented leave a ready block alone (R187). -/
theorem clockRun_idle {s : State} (hf : s.inFlight = none) (hr : s.cmdReady = true) :
    ∀ {idle : List Pins}, (∀ p ∈ idle, p.rstN = true ∧ p.cmdValid = false) → clockRun idle s = .next s
  | [], _ => rfl
  | p :: idle, h => by
    obtain ⟨⟨hp, hv⟩, hrest⟩ := List.forall_mem_cons.1 h
    rw [clockRun_cons (clockEdge_of_not_valid hp hf hr hv), clockRun_idle hf hr hrest]

/-- Settles O58: before the response the ports are those of the accepted command, at it those of the answered state,
which idle edges keep. -/
theorem outputPorts : Obligations.OutputPorts := by
  intro s w ps hf hr hps
  rw [clockRun_of_presented hf hr]
  refine ⟨rfl, fun hn => ⟨_, clockRun_accept_of_lt w s hps hn, rfl⟩, fun hn => ?_,
    fun p hp => ⟨_, clockEdge_of_reset hp s, rfl⟩⟩
  obtain ⟨t, r, hrun, hrsp, hready, hflight, hok, herr⟩ := everyCommandIsAnswered w (accept w s)
  refine ⟨t, r, (clockRun_accept_of_length_eq w s hps hn).trans hrun, hrun, hrsp, hok, herr, fun idle hidle => ?_⟩
  refine ⟨t, clockRun_idle hflight hready hidle, ?_⟩
  rw [outputs, hready, hrsp]
  rfl

end Sys2Proof.Machine
end

section
/-! SUPPORT. The host's invariant over its actions: what a command and a write do to the host's view, and that the images
it holds stay those of the latched configuration (20_memory.md R47, R52). -/

namespace Sys2Proof.Machine

open Sys2Proof.Statements

/-- The host's view after the block has answered `w` in state `t`. -/
def HostView.answered (v : HostView) (w : Word) (t : State) : HostView :=
  { v with block := t, cr1 := (imageAnswered .buildcr1 w t).or v.cr1, cr4 := (imageAnswered .buildcr4 w t).or v.cr4 }

theorem issue_of_runCommand {v : HostView} {w : Word} {t : State} (hmay : v.mayIssue w = true)
    (hrun : runCommand w (accept w v.block) = .next t) : v.issue w = some (v.answered w t) := by
  rw [HostView.issue, if_pos hmay, hrun]
  rfl

theorem runCommand_of_issue {v u : HostView} {w : Word} (h : v.issue w = some u) :
    ∃ t, runCommand w (accept w v.block) = .next t ∧ u = v.answered w t := by
  obtain ⟨t, -, hrun, -⟩ := everyCommandIsAnswered w (accept w v.block)
  have hmay : v.mayIssue w = true := by
    by_contra hmay
    rw [HostView.issue, if_neg hmay] at h
    cases h
  exact ⟨t, hrun, Option.some.inj (h.symm.trans (issue_of_runCommand hmay hrun))⟩

/-- A write leaves the block and the images alone, and carries what R52 says, after the identity check (R47). -/
theorem writeByte_cases {p : HostParams} {v u : HostView} {reg value : Byte} (h : v.writeByte p reg value = some u) :
    (u.block = v.block ∧ u.cr1 = v.cr1 ∧ u.cr4 = v.cr4) ∧ identityChecked v.block = true ∧
    ((reg = 0x20 ∧ v.cr1 = some value) ∨ (reg = 0x23 ∧ v.cr4 = some value) ∨ (reg = 0x1F ∧ value = p.tempCfgValue)) := by
  rw [HostView.writeByte] at h
  obtain ⟨hfree, h⟩ := Option.ite_none_left_eq_some.1 h
  have hid : identityChecked v.block = true := by
    rw [Bool.or_eq_true, not_or, Bool.not_eq_true', Bool.not_eq_false] at hfree
    exact hfree.2
  split at h
  next hreg =>
    obtain ⟨⟨hvalue, -⟩, h⟩ := Option.ite_none_right_eq_some.1 h
    cases h
    exact ⟨⟨rfl, rfl, rfl⟩, hid, .inl ⟨hreg, hvalue⟩⟩
  next =>
    split at h
    next hreg =>
      obtain ⟨⟨hvalue, -⟩, h⟩ := Option.ite_none_right_eq_some.1 h
      cases h
      exact ⟨⟨rfl, rfl, rfl⟩, hid, .inr (.inl ⟨hreg, hvalue⟩)⟩
    next =>
      obtain ⟨hreg, h⟩ := Option.ite_none_right_eq_some.1 h
      cases h
      exact ⟨⟨rfl, rfl, rfl⟩, hid, .inr (.inr hreg)⟩

/-- An image is kept from a successful response of its command. -/
theorem succeeded_of_imageAnswered {i : Instr} {w : Word} {s t : State} {b : Byte} (hrun : runCommand w s = .next t)
    (h : imageAnswered i w t = some b) :
    decode w = .instr i ∧ ∃ d, t.rsp = some ⟨true, .none, d⟩ ∧ b = d.setWidth 8 := by
  obtain ⟨t', ⟨ok, code, d⟩, hrun', hrsp, -, -, hcode, -⟩ := everyCommandIsAnswered w s
  cases hrun.symm.trans hrun'
  rw [imageAnswered, hrsp] at h
  obtain ⟨hd, h⟩ := Option.ite_none_right_eq_some.1 h
  obtain ⟨rfl, h⟩ := Option.ite_none_right_eq_some.1 h
  cases h
  cases hcode rfl
  exact ⟨hd, d, hrsp, rfl⟩

/-- CONFIGURED is left for FAILED alone, and neither has its configuration written (R22, R164, R165). -/
theorem sameConfig_of_latched {w : Word} {s t : State} (hs : s.sess = .configured ∨ s.sess = .failed)
    (hrun : runCommand w s = .next t) : (t.sess = .configured ∨ t.sess = .failed) ∧ SameConfig s t := by
  constructor
  · by_cases hsess : t.sess = s.sess
    · rwa [hsess]
    · rcases sessionMovesForward w s t hrun hsess with ⟨h, -⟩ | ⟨h, -⟩ | ⟨-, h, -⟩
      · simp [h] at hs
      · simp [h] at hs
      · exact .inr h
  · by_contra hchanged
    obtain ⟨h, -⟩ := configWrittenOnlyByCfgload w s t hrun hchanged
    simp [h] at hs

/-- What the host holds of one image is that image of the latched configuration. -/
def HoldsImage (image : State → Byte) (held : Option Byte) (s : State) : Prop :=
  ∀ b, held = some b → (s.sess = .configured ∨ s.sess = .failed) ∧ b = image s

/-- The image BUILDCR1 answers (42_config_encoder.md R135). -/
def latchedCr1 (s : State) : Byte := cr1Image s.cfgOdr s.cfgMode

/-- The image BUILDCR4 answers (42_config_encoder.md R137). -/
def latchedCr4 (s : State) : Byte := cr4Image s.cfgFs s.cfgMode

theorem hostInv_iff (v : HostView) :
    HostInv v ↔ BlockInv v.block ∧ HoldsImage latchedCr1 v.cr1 v.block ∧ HoldsImage latchedCr4 v.cr4 v.block :=
  ⟨fun h => ⟨h.block, h.cr1, h.cr4⟩, fun ⟨hblock, hcr1, hcr4⟩ => ⟨hblock, hcr1, hcr4⟩⟩

section
variable {i : Instr} {image : State → Byte} (hgate : ∀ x, gate i.mnemonic x = .run → x = .configured)
  (hrule : ∀ s, ruleOf i s = succeed (zext32 (image s)) s) (hconfig : ∀ s t, SameConfig s t → image t = image s)

include hgate hrule hconfig in
/-- A command that builds an image answers it in CONFIGURED; any other keeps the configuration the held image is of. -/
theorem holdsImage_answered {held : Option Byte} {w : Word} {s t : State} (h : HoldsImage image held s)
    (hrun : runCommand w s = .next t) : HoldsImage image ((imageAnswered i w t).or held) t := by
  intro b hb
  rcases Option.or_eq_some_iff.1 hb with hnew | ⟨-, hold⟩
  · obtain ⟨hd, d, hrsp, rfl⟩ := succeeded_of_imageAnswered hrun hnew
    obtain ⟨hs, rfl⟩ := eq_ruleOf_of_succeeded ((runCommand_of_decode hd s).symm.trans hrun) ⟨d, hrsp⟩
    rw [hrule, succeed_rsp] at hrsp
    cases hrsp
    have himage : image (succeed (zext32 (image s)) s) = image s := hconfig _ _ ⟨rfl, rfl, rfl⟩
    rw [hrule, himage]
    exact ⟨.inl (hgate _ hs), setWidth_zext32 (by decide) _⟩
  · obtain ⟨hs, rfl⟩ := h b hold
    obtain ⟨ht, hsame⟩ := sameConfig_of_latched hs hrun
    exact ⟨ht, (hconfig s t hsame).symm⟩

end

theorem holdsImage_cr1_answered {held : Option Byte} {w : Word} {s t : State}
    (h : HoldsImage latchedCr1 held s) (hrun : runCommand w s = .next t) :
    HoldsImage latchedCr1 ((imageAnswered .buildcr1 w t).or held) t :=
  holdsImage_answered (i := .buildcr1) (sess_of_gate_configReader (by decide)) (fun _ => rfl)
    (fun _ _ ⟨hodr, _, hmode⟩ => congrArg₂ cr1Image hodr hmode) h hrun

theorem holdsImage_cr4_answered {held : Option Byte} {w : Word} {s t : State}
    (h : HoldsImage latchedCr4 held s) (hrun : runCommand w s = .next t) :
    HoldsImage latchedCr4 ((imageAnswered .buildcr4 w t).or held) t :=
  holdsImage_answered (i := .buildcr4) (sess_of_gate_configReader (by decide)) (fun _ => rfl)
    (fun _ _ ⟨_, hfs, hmode⟩ => congrArg₂ cr4Image hfs hmode) h hrun

theorem hostInv_issue {v u : HostView} {w : Word} (hv : HostInv v) (h : v.issue w = some u) : HostInv u := by
  obtain ⟨t, hrun, rfl⟩ := runCommand_of_issue h
  obtain ⟨hblock, hcr1, hcr4⟩ := (hostInv_iff v).1 hv
  have haccepted : SessionInv (accept w v.block) := hblock.session.of_sameArch (.refl _)
  exact (hostInv_iff _).2 ⟨blockInv_runCommand haccepted hrun,
    holdsImage_cr1_answered (s := accept w v.block) hcr1 hrun, holdsImage_cr4_answered (s := accept w v.block) hcr4 hrun⟩

/-- An action on the device touches neither the block nor the images. -/
theorem HostInv.of_frame {v u : HostView} (hv : HostInv v) (hblock : u.block = v.block) (hcr1 : u.cr1 = v.cr1)
    (hcr4 : u.cr4 = v.cr4) : HostInv u := by
  obtain ⟨hinv, h1, h4⟩ := hv
  constructor
  · rwa [hblock]
  · rwa [hblock, hcr1]
  · rwa [hblock, hcr4]

theorem hostInv_readByte {v u : HostView} {reg value : Byte} (hv : HostInv v) (h : v.readByte reg value = some u) :
    HostInv u := by
  obtain ⟨hblock, hcr1, hcr4, -, -⟩ := readByte_frame h
  exact hv.of_frame hblock hcr1 hcr4

theorem hostInv_start {s : State} (unsettled : Bool) (h : BlockInv s) : HostInv (.start s unsettled) :=
  ⟨h, nofun, nofun⟩

/-- Settles O51: the host holds no image yet. -/
theorem hostStartSatisfiesInvariant : Obligations.HostStartSatisfiesInvariant :=
  hostInv_start false resetSatisfiesInvariant

/-- Settles O52: a command keeps the images those of the latched configuration, a reset drops them, and the actions on
the device touch nothing the invariant speaks of. -/
theorem hostActionKeepsInvariant : Obligations.HostActionKeepsInvariant := by
  intro p a v u hv hact
  cases a with
  | issue w => exact hostInv_issue hv (Option.ite_none_left_eq_some.1 hact).2
  | read reg value => exact hostInv_readByte hv (Option.ite_none_left_eq_some.1 hact).2
  | readTwo reg first second =>
    obtain ⟨v', hfirst, hsecond⟩ := Option.bind_eq_some_iff.1 (Option.ite_none_left_eq_some.1 hact).2
    exact hostInv_readByte (hostInv_readByte hv hfirst) hsecond
  | write reg value =>
    obtain ⟨⟨hblock, hcr1, hcr4⟩, -⟩ := writeByte_cases (Option.ite_none_left_eq_some.1 hact).2
    exact hv.of_frame hblock hcr1 hcr4
  | settle =>
    cases hact
    exact hv.of_frame rfl rfl rfl
  | transportFailure =>
    cases hact
    exact hv.of_frame rfl rfl rfl
  | resetBlock =>
    cases hact
    exact hostInv_start _ (blockInv_applyReset _)

theorem hostInv_run {p : HostParams} {as : List HostAction} {u : HostView} :
    ∀ {v : HostView}, HostInv v → HostView.run p as v = some u → HostInv u := by
  induction as with
  | nil =>
    intro v hv h
    cases h
    exact hv
  | cons a as ih =>
    intro v hv h
    obtain ⟨v', hact, hrest⟩ := Option.bind_eq_some_iff.1 h
    exact ih (hostActionKeepsInvariant p a v v' hv hact) hrest

theorem identityChecked_iff (s : State) : identityChecked s = true ↔ s.sess = .identified ∨ s.sess = .configured := by
  unfold identityChecked
  cases s.sess <;> simp

/-- After the identity check a held image is of a CONFIGURED block. -/
theorem configured_of_holdsImage {image : State → Byte} {held : Option Byte} {s : State} {b : Byte}
    (h : HoldsImage image held s) (hid : s.sess = .identified ∨ s.sess = .configured) (hb : held = some b) :
    s.sess = .configured ∧ b = image s := by
  obtain ⟨hs, himage⟩ := h b hb
  refine ⟨?_, himage⟩
  rcases hid with hid | hid
  · simp [hid] at hs
  · exact hid

/-- Settles O53: a write within the duties carries a held image or TEMP_CFG_VALUE, and the invariant holds on the run. -/
theorem hostWritesTheLatchedImages : Obligations.HostWritesTheLatchedImages := by
  intro p as v u reg value hrun hact
  obtain ⟨-, hcr1, hcr4⟩ := (hostInv_iff v).1 (hostInv_run hostStartSatisfiesInvariant hrun)
  obtain ⟨-, hid, hreg⟩ := writeByte_cases (Option.ite_none_left_eq_some.1 hact).2
  rw [identityChecked_iff] at hid
  refine ⟨hid, ?_⟩
  rcases hreg with ⟨rfl, hb⟩ | ⟨rfl, hb⟩ | ⟨rfl, hb⟩
  · exact ⟨fun _ => configured_of_holdsImage hcr1 hid hb, by simp, by simp, by simp⟩
  · exact ⟨by simp, fun _ => configured_of_holdsImage hcr4 hid hb, by simp, by simp⟩
  · exact ⟨by simp, by simp, fun _ => hb, by simp⟩

end Sys2Proof.Machine
end

section
/-! SUPPORT. What breaks a duty (20_memory.md R47 to R51). -/

namespace Sys2Proof.Machine

open Sys2Proof.Statements

theorem act_read_eq_none {v : HostView} {reg value : Byte} (h : v.readByte reg value = none) (p : HostParams) :
    v.act p (.read reg value) = none := by
  rw [HostView.act, h, ite_self]

theorem act_write_eq_none {p : HostParams} {v : HostView} {reg value : Byte} (h : v.writeByte p reg value = none) :
    v.act p (.write reg value) = none := by
  rw [HostView.act, h, ite_self]

theorem act_readTwo_eq_none {v : HostView} {reg first : Byte} (h : v.readByte reg first = none) (p : HostParams)
    (second : Byte) : v.act p (.readTwo reg first second) = none := by
  rw [HostView.act, h, Option.bind_none, ite_self]

/-- R50. -/
theorem readByte_of_unsettled {v : HostView} (h : v.unsettled = true) (reg value : Byte) :
    v.readByte reg value = none := by
  simp [HostView.readByte, h]

/-- R50. -/
theorem writeByte_of_unsettled {v : HostView} (h : v.unsettled = true) (p : HostParams) (reg value : Byte) :
    v.writeByte p reg value = none := by
  simp [HostView.writeByte, h]

/-- R47. -/
theorem writeByte_of_failed {v : HostView} (h : v.block.sess = .failed) (p : HostParams) (reg value : Byte) :
    v.writeByte p reg value = none := by
  simp [HostView.writeByte, identityChecked, h]

/-- R48: the high byte of a pair is not read first. -/
theorem readByte_high_of_not_open {v : HostView} {c : Channel} (h : v.lowOf c = none) (value : Byte) :
    v.readByte (regAddress c.highReg) value = none := by
  cases c <;>
    simp [HostView.readByte, regAddress, Channel.lowReg, Channel.highReg, channelOfLow, channelOfHigh, channels, h]

/-- R48: the low byte of an open pair is not read again. -/
theorem readByte_low_of_open {v : HostView} {c : Channel} (h : v.lowOf c ≠ none) (value : Byte) :
    v.readByte (regAddress c.lowReg) value = none := by
  rw [← Option.isSome_iff_ne_none] at h
  cases c <;> simp [HostView.readByte, regAddress, Channel.lowReg, channelOfLow, channels, h]

/-- The bases of R83, with the high register at the next address. -/
theorem channel_of_base {base : Byte} (h : base ∈ [(0x0C : Byte), 0x28, 0x2A, 0x2C]) :
    ∃ c : Channel, base = regAddress c.lowReg ∧ base + 1 = regAddress c.highReg := by
  have hbases : base ∈ channels.map fun c => regAddress c.lowReg := h
  obtain ⟨c, -, rfl⟩ := List.mem_map.1 hbases
  exact ⟨c, rfl, by cases c <;> rfl⟩

/-- R47: neither register of a channel is read in a failed session. -/
theorem readByte_pair_of_failed {v : HostView} (h : v.block.sess = .failed) {base : Byte}
    (hbase : base ∈ [(0x0C : Byte), 0x28, 0x2A, 0x2C]) (value : Byte) :
    v.readByte base value = none ∧ v.readByte (base + 1) value = none := by
  obtain ⟨c, rfl, hhigh⟩ := channel_of_base hbase
  rw [hhigh]
  exact readByte_failed h c value

/-- Settles O54: each clause is a check of the monitor that refuses. -/
theorem brokenDutiesStopTheRun : Obligations.BrokenDutiesStopTheRun := by
  intro p v reg x y w' w
  refine ⟨fun h => ?_, fun h => ?_, fun c h => act_read_eq_none (readByte_high_of_not_open h w') p,
    fun c h => act_read_eq_none (readByte_low_of_open h w') p, fun h => ?_, fun h base hbase => ?_⟩
  · have hread := readByte_of_unsettled h reg x
    exact ⟨act_read_eq_none hread p, act_write_eq_none (writeByte_of_unsettled h p reg x),
      act_readTwo_eq_none hread p y⟩
  · simp [HostView.act, h]
  · simp [HostView.act, h]
  · obtain ⟨hlow, hhigh⟩ := readByte_pair_of_failed h hbase x
    exact ⟨act_read_eq_none hlow p, act_read_eq_none hhigh p, act_readTwo_eq_none hlow p y⟩

end Sys2Proof.Machine
end

section
/-! SUPPORT. Runs of the host: one lemma per action within the duties, then the boot sequence and one sample
(70_reset_and_hazards.md R183). -/

namespace Sys2Proof.Machine

open Sys2Proof.Statements

theorem run_cons {p : HostParams} {a : HostAction} {v u : HostView} (h : v.act p a = some u) (as : List HostAction) :
    HostView.run p (a :: as) v = HostView.run p as u := by
  rw [HostView.run, h]
  rfl

theorem imageAnswered_encode_self {i : Instr} {b : Byte} (s : State) :
    imageAnswered i (encode i) (success (zext32 b) s) = some b := by
  rw [imageAnswered, if_pos (decodeOfEncode i)]
  exact congrArg some (setWidth_zext32 (by decide) b)

theorem imageAnswered_encode_of_ne {i j : Instr} (h : j ≠ i) (t : State) : imageAnswered i (encode j) t = none := by
  rw [imageAnswered, decodeOfEncode, if_neg fun hd => h (Decoded.instr.inj hd)]

/-- A command the host may issue runs as its instruction, in the state in which its word is accepted. -/
theorem act_issue {p : HostParams} {v : HostView} {i : Instr} {t : State} (hf : v.transferFailed = false)
    (hmay : v.mayIssue (encode i) = true) (hexec : exec i (accept (encode i) v.block) = .next t) :
    v.act p (.issue (encode i)) = some (v.answered (encode i) t) := by
  rw [HostView.act, hf]
  exact issue_of_runCommand hmay ((runCommand_of_decode (decodeOfEncode i) _).trans hexec)

/-- A command that answers no image changes the block alone. -/
theorem act_issue_plain {p : HostParams} {v : HostView} {i : Instr} {t : State} (hi : i ≠ .buildcr1 ∧ i ≠ .buildcr4)
    (hf : v.transferFailed = false) (hmay : v.mayIssue (encode i) = true)
    (hexec : exec i (accept (encode i) v.block) = .next t) :
    v.act p (.issue (encode i)) = some { v with block := t } := by
  rw [act_issue hf hmay hexec, HostView.answered, imageAnswered_encode_of_ne hi.1, imageAnswered_encode_of_ne hi.2]
  rfl

theorem act_issue_buildcr1 {p : HostParams} {v : HostView} (hf : v.transferFailed = false)
    (hs : v.block.sess = .configured) :
    v.act p (.issue (encode .buildcr1)) =
      some { v with block := success (zext32 (latchedCr1 v.block)) (accept (encode .buildcr1) v.block),
                    cr1 := some (latchedCr1 v.block) } := by
  rw [act_issue hf (by rw [HostView.mayIssue, decodeOfEncode]) (exec_buildcr1 hs), HostView.answered,
    imageAnswered_encode_self, imageAnswered_encode_of_ne (by decide)]
  rfl

theorem act_issue_buildcr4 {p : HostParams} {v : HostView} (hf : v.transferFailed = false)
    (hs : v.block.sess = .configured) :
    v.act p (.issue (encode .buildcr4)) =
      some { v with block := success (zext32 (latchedCr4 v.block)) (accept (encode .buildcr4) v.block),
                    cr4 := some (latchedCr4 v.block) } := by
  rw [act_issue hf (by rw [HostView.mayIssue, decodeOfEncode]) (exec_buildcr4 hs), HostView.answered,
    imageAnswered_encode_self, imageAnswered_encode_of_ne (by decide)]
  rfl

/-- R52: both control images are written in either order. -/
theorem run_controlWrites {p : HostParams} {v : HostView} {b1 b4 : Byte} (hf : v.transferFailed = false)
    (hu : v.unsettled = false) (hs : v.block.sess = .configured) (h1 : v.cr1 = some b1) (h4 : v.cr4 = some b4) :
    HostView.run p (controlWrites p b1 b4) v = some { v with wroteCr1 := true, wroteCr4 := true } := by
  cases horder : p.ctrlReg1First <;>
    simp [controlWrites, horder, HostView.run, HostView.act, HostView.writeByte, identityChecked, regAddress, hf, hu, hs,
      h1, h4]

/-- R183 step 5: the two images are asked for, and the configuration stays. -/
theorem run_buildImages {p : HostParams} {v : HostView} (hf : v.transferFailed = false)
    (hs : v.block.sess = .configured) (as : List HostAction) :
    ∃ t, SameArch v.block t ∧
      HostView.run p (.issue (encode .buildcr1) :: .issue (encode .buildcr4) :: as) v =
        HostView.run p as
          { v with block := t, cr1 := some (latchedCr1 v.block), cr4 := some (latchedCr4 v.block) } := by
  refine ⟨success (zext32 (latchedCr4 v.block)) (accept (encode .buildcr4)
    (success (zext32 (latchedCr1 v.block)) (accept (encode .buildcr1) v.block))), .refl v.block, ?_⟩
  rw [run_cons (act_issue_buildcr1 hf hs), run_cons (act_issue_buildcr4 (by exact hf) (by exact hs))]
  rfl

/-- The host's view once the device has returned `b` from WHO_AM_I and before an image is asked for. -/
def HostView.identifying (b : Byte) (s : State) : HostView := { HostView.start s false with whoAmI := some b }

/-- R183 steps 2 and 3, up to the identity check. -/
theorem run_untilIdentity (p : HostParams) (b : Byte) (as : List HostAction) :
    ∃ s : State, s.sess = .unchecked ∧
      HostView.run p (.issue (encode (.regaddr 0)) :: .read (regAddress .whoAmI) b :: as) (.start State.reset false) =
        HostView.run p as (.identifying b s) := by
  have hexec : exec (.regaddr 0) (accept (encode (.regaddr 0)) State.reset) =
      .next (success 0x0F (accept (encode (.regaddr 0)) State.reset)) :=
    exec_regaddr_of_romEntry (address := 0x0F) (by decide) rfl
  refine ⟨success 0x0F (accept (encode (.regaddr 0)) State.reset), rfl, ?_⟩
  rw [run_cons (act_issue_plain (by decide) rfl rfl hexec)]
  exact run_cons rfl as

/-- R47: IDCHECK's operand is the byte read from WHO_AM_I. -/
theorem act_issue_idcheck {p : HostParams} {b : Byte} {s t : State}
    (hexec : exec (.idcheck b) (accept (encode (.idcheck b)) s) = .next t) :
    (HostView.identifying b s).act p (.issue (encode (.idcheck b))) = some (.identifying b t) := by
  refine act_issue_plain ⟨nofun, nofun⟩ rfl ?_ hexec
  rw [HostView.mayIssue, decodeOfEncode]
  exact beq_self_eq_true _

/-- Settles O56: a byte other than 0x33 fails the session, and a failed session is neither written nor sampled. -/
theorem unknownDeviceStopsTheBoot : Obligations.UnknownDeviceStopsTheBoot := by
  intro p b hb
  obtain ⟨s, hs, hrun⟩ := run_untilIdentity p b [.issue (encode (.idcheck b))]
  have hid := act_issue_idcheck (p := p) (exec_idcheck_of_mismatch (s := accept (encode (.idcheck b)) s) hs hb)
  refine ⟨_, hrun.trans (run_cons hid []), rfl, rfl,
    fun reg value => act_write_eq_none (writeByte_of_failed rfl p reg value), fun base hbase value => ?_⟩
  exact (readByte_pair_of_failed rfl hbase value).imp (act_read_eq_none · p) (act_read_eq_none · p)

/-- R131: the session of a known device latches operands that have codes. -/
theorem act_issue_cfgload {p : HostParams} {b : Byte} {odr : BitVec 4} {rangeG : Byte} {fs mode : BitVec 2} {m : Mode}
    {s : State} (hs : s.sess = .identified)
    (hfs : (rangeG, fs) ∈ [((2 : Byte), (0b00 : BitVec 2)), (4, 0b01), (8, 0b10), (16, 0b11)])
    (hm : (mode, m) ∈ [((0b00 : BitVec 2), Mode.normal), (0b01, .lowPower), (0b10, .highResolution)]) :
    ∃ t : State, t.sess = .configured ∧ t.cfgOdr = odr ∧ t.cfgFs = fs ∧ t.cfgMode = m ∧
      (HostView.identifying b s).act p (.issue (encode (.cfgload odr rangeG mode))) = some (.identifying b t) := by
  obtain ⟨-, hlatch, -⟩ := cfgloadCommand odr rangeG mode (accept (encode (.cfgload odr rangeG mode)) s)
  have hmay : (HostView.identifying b s).mayIssue (encode (.cfgload odr rangeG mode)) = true := by
    rw [HostView.mayIssue, decodeOfEncode]
  exact ⟨_, rfl, rfl, rfl, rfl, act_issue_plain ⟨nofun, nofun⟩ rfl hmay (hlatch hs fs m hfs hm)⟩

/-- Settles O55: each command's run gives the session state that the next one needs, and the images asked for are those
of the latched operands. -/
theorem bootSequenceConfigures : Obligations.BootSequenceConfigures := by
  intro p odr rangeG fs mode m hfs hm
  obtain ⟨s, hs, hstart⟩ := run_untilIdentity p 0x33 (.issue (encode (.idcheck 0x33)) ::
    .issue (encode (.cfgload odr rangeG mode)) :: .issue (encode .buildcr1) :: .issue (encode .buildcr4) ::
    controlWrites p (cr1Image odr m) (cr4Image fs m))
  have hid := act_issue_idcheck (p := p) (exec_idcheck_of_match (s := accept (encode (.idcheck 0x33)) s) hs)
  obtain ⟨t, ht, rfl, rfl, rfl, hcfg⟩ := act_issue_cfgload (p := p) (b := 0x33) (odr := odr)
    (s := success 1 { accept (encode (.idcheck 0x33)) s with sess := .identified }) rfl hfs hm
  obtain ⟨u, ⟨hsess, -, hconfig⟩, himages⟩ := run_buildImages (p := p) (v := .identifying 0x33 t) rfl ht
    (controlWrites p (cr1Image t.cfgOdr t.cfgMode) (cr4Image t.cfgFs t.cfgMode))
  obtain ⟨hodr, hfs', hmode⟩ := hconfig
  have hrun := run_controlWrites (p := p) (v := { HostView.identifying 0x33 u with
    cr1 := some (cr1Image t.cfgOdr t.cfgMode), cr4 := some (cr4Image t.cfgFs t.cfgMode) })
    rfl rfl (hsess.trans ht) rfl rfl
  refine ⟨_, (hstart.trans ?_).trans hrun, hsess.trans ht, hodr, hfs', hmode, rfl, rfl, rfl⟩
  rw [run_cons hid, run_cons hcfg]
  exact himages

/-- A conversion of a channel runs in CONFIGURED and answers a word made of the FS code and the mode. -/
theorem exec_conversion (c : Channel) (raw : Raw) :
    ∃ word : BitVec 2 → Mode → Word, ∀ s : State, s.sess = .configured →
      exec (c.conversion raw) s = .next (success (word s.cfgFs s.cfgMode) s) := by
  have hconv : IsConversion (c.conversion raw) := by cases c <;> simp [Channel.conversion, IsConversion, Instr.mnemonic]
  have hgate : gate (c.conversion raw).mnemonic .configured = .run := by cases c <;> rfl
  obtain ⟨word, hrule, -⟩ := ruleOf_conversion hconv
  refine ⟨word, fun s hs => ?_⟩
  rw [exec_eq_gated, gated_run (hs ▸ hgate), hrule, succeed_eq_success]

/-- The channels of R83 with their bases and conversions. -/
theorem channel_of_mem {c : Channel} {base : Byte} {conversion : Raw → Instr}
    (h : (c, base, conversion) ∈ [(Channel.temperature, (0x0C : Byte), Instr.tempconv), (.x, 0x28, .accconv),
      (.y, 0x2A, .accconv), (.z, 0x2C, .accconv)]) :
    base = regAddress c.lowReg ∧ base + 1 = regAddress c.highReg ∧ conversion = c.conversion := by
  have htable : (c, base, conversion) ∈ channels.map fun c => (c, regAddress c.lowReg, c.conversion) := h
  obtain ⟨c', -, hc⟩ := List.mem_map.1 htable
  cases hc
  exact ⟨rfl, by cases c <;> rfl, rfl⟩

theorem assembleSample_eq_ofNat (lo hi : Byte) :
    assembleSample lo hi = BitVec.ofNat 16 (0x100 * hi.toNat + lo.toNat) := by
  rw [assembleSample_eq_append, ← toNat_append_byte, BitVec.ofNat_toNat, BitVec.setWidth_eq]

theorem act_read {v : HostView} {reg value : Byte} (hf : v.transferFailed = false) (p : HostParams) :
    v.act p (.read reg value) = v.readByte reg value := by
  rw [HostView.act, if_neg (by simp [hf])]

/-- R48: a fetched pair may be assembled. -/
theorem act_issue_assemble {p : HostParams} {v : HostView} {c : Channel} {lo hi : Byte} (hf : v.transferFailed = false)
    (hs : v.block.sess ≠ .failed) (hfetched : (c, lo, hi) ∈ v.samples) :
    ∃ t, SameArch v.block t ∧ v.act p (.issue (encode (.assemble lo hi))) = some { v with block := t } := by
  have hmay : v.mayIssue (encode (.assemble lo hi)) = true := by
    rw [HostView.mayIssue, decodeOfEncode]
    exact List.any_eq_true.2 ⟨_, hfetched, beq_self_eq_true _⟩
  exact ⟨success (zext32 (assembleSample lo hi)) (accept (encode (.assemble lo hi)) v.block), .refl v.block,
    act_issue_plain ⟨nofun, nofun⟩ hf hmay (exec_assemble hs)⟩

/-- The monitor leaves a conversion's operand free (log 19). -/
theorem act_issue_conversion {p : HostParams} {v : HostView} {c : Channel} {raw : Raw} {t : State}
    (hf : v.transferFailed = false)
    (hexec : exec (c.conversion raw) (accept (encode (c.conversion raw)) v.block) = .next t) :
    v.act p (.issue (encode (c.conversion raw))) = some { v with block := t } := by
  refine act_issue_plain ?_ hf ?_ hexec
  · cases c <;> exact ⟨nofun, nofun⟩
  · rw [HostView.mayIssue, decodeOfEncode]
    cases c <;> rfl

/-- R48: the two reads of a sample fetch its pair. -/
theorem run_readPair {p : HostParams} {v : HostView} {c : Channel} (hf : v.transferFailed = false)
    (hu : v.unsettled = false) (hs : v.block.sess ≠ .failed) (hopen : v.lowOf c = none) (lo hi : Byte)
    (as : List HostAction) :
    ∃ u, (u.block = v.block ∧ u.transferFailed = false ∧ (c, lo, hi) ∈ u.samples) ∧
      HostView.run p (.read (regAddress c.lowReg) lo :: .read (regAddress c.highReg) hi :: as) v =
        HostView.run p as u := by
  have hlow : v.act p (.read (regAddress c.lowReg) lo) = some { v with lows := (c, lo) :: v.lows } :=
    (act_read hf p).trans (readByte_low hu hs hopen lo)
  have hpair : HostView.lowOf { v with lows := (c, lo) :: v.lows } c = some lo := by simp [HostView.lowOf]
  have hhigh := readByte_high (v := { v with lows := (c, lo) :: v.lows }) hu hs hpair hi
  refine ⟨_, ?_, (run_cons hlow _).trans (run_cons ((act_read (by exact hf) p).trans hhigh) as)⟩
  exact ⟨rfl, hf, List.mem_cons_self⟩

/-- Settles O57: the pair's reads complete it, ASSEMBLE may take it, and neither its answer nor the conversion's writes a
field. -/
theorem samplingConverts : Obligations.SamplingConverts := by
  intro p v c base conversion lo hi raw hmem hraw hs hu hf hopen
  obtain ⟨rfl, hbase, rfl⟩ := channel_of_mem hmem
  obtain rfl : raw = assembleSample lo hi := hraw.trans (assembleSample_eq_ofNat lo hi).symm
  refine ⟨by rw [hbase, sampleActions], ?_⟩
  obtain ⟨word, hword⟩ := exec_conversion c (assembleSample lo hi)
  obtain ⟨u, ⟨hblock, huf, hfetched⟩, hreads⟩ := run_readPair (p := p) hf hu (by simp [hs]) hopen lo hi
    [.issue (encode (.assemble lo hi)), .issue (encode (c.conversion (assembleSample lo hi)))]
  obtain ⟨t, harch, hassemble⟩ := act_issue_assemble (p := p) huf (by simp [hblock, hs]) hfetched
  rw [hblock] at harch
  have ⟨hsess, _, _, hfs, hmode⟩ := harch
  have hconvert := act_issue_conversion (p := p) (v := { u with block := t }) huf
    (hword (accept (encode (c.conversion (assembleSample lo hi))) t) (hsess.trans hs))
  refine ⟨_, _, hreads.trans ((run_cons hassemble _).trans (run_cons hconvert [])), harch, hword v.block hs,
    ⟨_, rfl⟩, ?_⟩
  exact congrArg (fun d : Word => some (Response.mk true .none d)) (congrArg₂ word hfs hmode)

end Sys2Proof.Machine
end
